-- ==== Sys2Proof/Word.lean ====
section
/-! DEFINITION. Word types of the block (R8, R9): bytes, 7-bit register addresses, bit positions of a byte. -/

namespace Sys2Proof

/-- Every register and buffer value is one byte (R9, R18). -/
abbrev Byte := BitVec 8

/-- A register address: seven bits, never holding the direction bit (R38, R56). -/
abbrev RegAddr := BitVec 7

/-- A bit position of a byte, 0 the least significant (R8). -/
abbrev BitPos := Fin 8

end Sys2Proof
end

