-- ==== Sys2Proof/Syntax.lean ====
section
/-! DEFINITION. The instructions of the block: one constructor of Instr per row of spec/opcode_table.json (38 transactions,
7 host requests), and the types their operands have. -/

namespace Sys2Proof

/-- The radio modes (R20). -/
inductive Mode where
  | sleep | standby | transmit | receiveContinuous
  deriving DecidableEq, Repr, Inhabited

/-- The nineteen device registers (R18), in the order of the address table of R60. -/
inductive RegName where
  | fifo
  | opMode
  | frfMsb
  | frfMid
  | frfLsb
  | paConfig
  | fifoAddrPtr
  | fifoTxBaseAddr
  | fifoRxBaseAddr
  | fifoRxCurrentAddr
  | irqFlags
  | rxNbBytes
  | modemConfig1
  | modemConfig2
  | preambleMsb
  | preambleLsb
  | payloadLength
  | modemConfig3
  | version
  deriving DecidableEq, Repr, Inhabited

/-- All register names, in the order of R60. -/
def RegName.all : List RegName :=
  [.fifo, .opMode, .frfMsb, .frfMid, .frfLsb, .paConfig, .fifoAddrPtr, .fifoTxBaseAddr, .fifoRxBaseAddr, .fifoRxCurrentAddr,
   .irqFlags, .rxNbBytes, .modemConfig1, .modemConfig2, .preambleMsb, .preambleLsb, .payloadLength, .modemConfig3, .version]

/-- A numeric field of a telemetry record (R132): an exact rational, or not a finite number. -/
inductive Value where
  | finite (q : Rat)
  | nonFinite
  deriving DecidableEq, Repr, Inhabited

/-- What `encode` takes (R133). -/
structure TelemetryRecord where
  tag : List Byte
  temperature : Value
  humidity : Value
  pressure : Value
  sequence : BitVec 32
  deriving DecidableEq, Repr, Inhabited

/-- What a successful `decode` gives (R141): the sequence field may be absent. -/
structure DecodedRecord where
  tag : List Byte
  temperature : Value
  humidity : Value
  pressure : Value
  sequence : Option (BitVec 32)
  deriving DecidableEq, Repr, Inhabited

/-- The host requests that the port carries to the controller (R73, R152). -/
inductive Request where
  | reset
  | init
  | setMode (m : Mode)
  | send (bytes : List Byte)
  | tryReceive (maxLength : Nat)
  deriving DecidableEq, Repr, Inhabited

/-- The two host requests the codec answers; they do not use the controller (R152). A caller of `encode` gives its frame bound
or leaves it to the parameter `maxFrameLen` (R137; log 31). -/
inductive CodecCall where
  | encode (rec : TelemetryRecord) (bound : Option Nat)
  | decode (bytes : List Byte)
  deriving DecidableEq, Repr, Inhabited

/-- An access given to the Register Bus directly (R74, R75): the bytes of the serial link, or a call with an 8-bit
address operand (R56, D28). -/
inductive BusCall where
  | raw (bytes : List Byte)
  | read (addr : Byte)
  | write (addr : Byte) (v : Byte)
  deriving DecidableEq, Repr, Inhabited

/-- The instructions. A read carries its dummy byte (`dummy`, R57), a write its data byte (`v`). -/
inductive Instr where
  /-- RD_FIFO, R79 -/
  | rdFifo (dummy : Byte)
  /-- RD_OP_MODE, R80 -/
  | rdOpMode (dummy : Byte)
  /-- RD_FRF_MSB, R81 -/
  | rdFrfMsb (dummy : Byte)
  /-- RD_FRF_MID, R82 -/
  | rdFrfMid (dummy : Byte)
  /-- RD_FRF_LSB, R83 -/
  | rdFrfLsb (dummy : Byte)
  /-- RD_PA_CONFIG, R84 -/
  | rdPaConfig (dummy : Byte)
  /-- RD_FIFO_ADDR_PTR, R85 -/
  | rdFifoAddrPtr (dummy : Byte)
  /-- RD_FIFO_TX_BASE_ADDR, R86 -/
  | rdFifoTxBaseAddr (dummy : Byte)
  /-- RD_FIFO_RX_BASE_ADDR, R87 -/
  | rdFifoRxBaseAddr (dummy : Byte)
  /-- RD_FIFO_RX_CURRENT_ADDR, R88 -/
  | rdFifoRxCurrentAddr (dummy : Byte)
  /-- RD_IRQ_FLAGS, R89 -/
  | rdIrqFlags (dummy : Byte)
  /-- RD_RX_NB_BYTES, R90 -/
  | rdRxNbBytes (dummy : Byte)
  /-- RD_MODEM_CONFIG_1, R91 -/
  | rdModemConfig1 (dummy : Byte)
  /-- RD_MODEM_CONFIG_2, R92 -/
  | rdModemConfig2 (dummy : Byte)
  /-- RD_PREAMBLE_MSB, R93 -/
  | rdPreambleMsb (dummy : Byte)
  /-- RD_PREAMBLE_LSB, R94 -/
  | rdPreambleLsb (dummy : Byte)
  /-- RD_PAYLOAD_LENGTH, R95 -/
  | rdPayloadLength (dummy : Byte)
  /-- RD_MODEM_CONFIG_3, R96 -/
  | rdModemConfig3 (dummy : Byte)
  /-- RD_VERSION, R97 -/
  | rdVersion (dummy : Byte)
  /-- WR_FIFO, R98 -/
  | wrFifo (v : Byte)
  /-- WR_OP_MODE, R99 -/
  | wrOpMode (v : Byte)
  /-- WR_FRF_MSB, R100 -/
  | wrFrfMsb (v : Byte)
  /-- WR_FRF_MID, R101 -/
  | wrFrfMid (v : Byte)
  /-- WR_FRF_LSB, R102 -/
  | wrFrfLsb (v : Byte)
  /-- WR_PA_CONFIG, R103 -/
  | wrPaConfig (v : Byte)
  /-- WR_FIFO_ADDR_PTR, R104 -/
  | wrFifoAddrPtr (v : Byte)
  /-- WR_FIFO_TX_BASE_ADDR, R105 -/
  | wrFifoTxBaseAddr (v : Byte)
  /-- WR_FIFO_RX_BASE_ADDR, R106 -/
  | wrFifoRxBaseAddr (v : Byte)
  /-- WR_FIFO_RX_CURRENT_ADDR, R107 -/
  | wrFifoRxCurrentAddr (v : Byte)
  /-- WR_IRQ_FLAGS, R108 -/
  | wrIrqFlags (v : Byte)
  /-- WR_RX_NB_BYTES, R109 -/
  | wrRxNbBytes (v : Byte)
  /-- WR_MODEM_CONFIG_1, R110 -/
  | wrModemConfig1 (v : Byte)
  /-- WR_MODEM_CONFIG_2, R111 -/
  | wrModemConfig2 (v : Byte)
  /-- WR_PREAMBLE_MSB, R112 -/
  | wrPreambleMsb (v : Byte)
  /-- WR_PREAMBLE_LSB, R113 -/
  | wrPreambleLsb (v : Byte)
  /-- WR_PAYLOAD_LENGTH, R114 -/
  | wrPayloadLength (v : Byte)
  /-- WR_MODEM_CONFIG_3, R115 -/
  | wrModemConfig3 (v : Byte)
  /-- WR_VERSION, R116 -/
  | wrVersion (v : Byte)
  /-- reset, R117 -/
  | reset
  /-- init, R118 -/
  | init
  /-- setMode, R119 -/
  | setMode (m : Mode)
  /-- send, R128 -/
  | send (bytes : List Byte)
  /-- tryReceive, R129 -/
  | tryReceive (maxLength : Nat)
  /-- encode, R137 -/
  | encode (rec : TelemetryRecord) (maxFrameLen : Nat)
  /-- decode, R141 -/
  | decode (bytes : List Byte)
  deriving DecidableEq, Repr, Inhabited

/-- The instruction a port request stands for (R73). -/
def Request.toInstr : Request → Instr
  | .reset => .reset
  | .init => .init
  | .setMode m => .setMode m
  | .send bytes => .send bytes
  | .tryReceive n => .tryReceive n

/-- The instruction a codec call stands for (R73), where `maxFrameLen` is the bound of an `encode` that gives none (R137). -/
def CodecCall.toInstr (c : CodecCall) (maxFrameLen : Nat) : Instr :=
  match c with
  | .encode rec bound => .encode rec (bound.getD maxFrameLen)
  | .decode bytes => .decode bytes

end Sys2Proof
end

