-- ==== Sys2Proof/Config.lean ====
section
/-! DEFINITION. What an implementation fixes: the named parameters of R6 as plain data (State.cfg carries them, log 2),
their defaults, the constants the source fixes, and the free values (`draw()`, R10) as constants with no body. -/

namespace Sys2Proof

/-- `regAddr : RegName → UInt7` (R60) as plain data. -/
structure RegMap where
  fifo : RegAddr
  opMode : RegAddr
  frfMsb : RegAddr
  frfMid : RegAddr
  frfLsb : RegAddr
  paConfig : RegAddr
  fifoAddrPtr : RegAddr
  fifoTxBaseAddr : RegAddr
  fifoRxBaseAddr : RegAddr
  fifoRxCurrentAddr : RegAddr
  irqFlags : RegAddr
  rxNbBytes : RegAddr
  modemConfig1 : RegAddr
  modemConfig2 : RegAddr
  preambleMsb : RegAddr
  preambleLsb : RegAddr
  payloadLength : RegAddr
  modemConfig3 : RegAddr
  version : RegAddr
  deriving DecidableEq, Repr, Inhabited

/-- The address of a register. -/
def RegMap.addr (m : RegMap) : RegName → RegAddr
  | .fifo => m.fifo
  | .opMode => m.opMode
  | .frfMsb => m.frfMsb
  | .frfMid => m.frfMid
  | .frfLsb => m.frfLsb
  | .paConfig => m.paConfig
  | .fifoAddrPtr => m.fifoAddrPtr
  | .fifoTxBaseAddr => m.fifoTxBaseAddr
  | .fifoRxBaseAddr => m.fifoRxBaseAddr
  | .fifoRxCurrentAddr => m.fifoRxCurrentAddr
  | .irqFlags => m.irqFlags
  | .rxNbBytes => m.rxNbBytes
  | .modemConfig1 => m.modemConfig1
  | .modemConfig2 => m.modemConfig2
  | .preambleMsb => m.preambleMsb
  | .preambleLsb => m.preambleLsb
  | .payloadLength => m.payloadLength
  | .modemConfig3 => m.modemConfig3
  | .version => m.version

/-- The default addresses (R60, D2). PRESUMED from the SX127x family by the spec itself; log 3. -/
def RegMap.default : RegMap where
  fifo := 0x00#7
  opMode := 0x01#7
  frfMsb := 0x06#7
  frfMid := 0x07#7
  frfLsb := 0x08#7
  paConfig := 0x09#7
  fifoAddrPtr := 0x0D#7
  fifoTxBaseAddr := 0x0E#7
  fifoRxBaseAddr := 0x0F#7
  fifoRxCurrentAddr := 0x10#7
  irqFlags := 0x12#7
  rxNbBytes := 0x13#7
  modemConfig1 := 0x1D#7
  modemConfig2 := 0x1E#7
  preambleMsb := 0x20#7
  preambleLsb := 0x21#7
  payloadLength := 0x22#7
  modemConfig3 := 0x26#7
  version := 0x42#7

/-- `modeCode : Mode → UInt3` (R19, D4) as plain data. -/
structure ModeCodes where
  sleep : BitVec 3
  standby : BitVec 3
  transmit : BitVec 3
  receiveContinuous : BitVec 3
  deriving DecidableEq, Repr, Inhabited

/-- The code of a mode. -/
def ModeCodes.code (c : ModeCodes) : Mode → BitVec 3
  | .sleep => c.sleep
  | .standby => c.standby
  | .transmit => c.transmit
  | .receiveContinuous => c.receiveContinuous

/-- The default mode codes (R19, D4; log 4). -/
def ModeCodes.default : ModeCodes where
  sleep := 0b000#3
  standby := 0b001#3
  transmit := 0b011#3
  receiveContinuous := 0b101#3

/-- What `decode` does with a field that is no number (R141, D15). -/
inductive ParsePolicy where
  | reject | zero
  deriving DecidableEq, Repr, Inhabited

/-- Where the device puts a received frame (R125, D9). -/
inductive Placement where
  | anywhere | base
  deriving DecidableEq, Repr, Inhabited

/-- The parameters the document leaves open (R6). No rule and no step changes them (R36). -/
structure Params where
  /-- `regAddr` (D2) -/
  regMap : RegMap
  /-- `modeCode` (D4) -/
  codes : ModeCodes
  /-- `txDoneBit` (D5) -/
  txDoneBit : BitPos
  /-- `rxDoneBit` (D5) -/
  rxDoneBit : BitPos
  /-- `chipId`, the identity the controller expects (D3) -/
  chipId : Byte
  /-- `devId`, the identity the device holds (D3) -/
  devId : Byte
  /-- `freqHz` (§6, R63) -/
  freqHz : Nat
  /-- `paConfigByte` (D7) -/
  paConfigByte : Byte
  /-- `modemConfig1Byte` (D7) -/
  modemConfig1Byte : Byte
  /-- `modemConfig2Byte` (D7) -/
  modemConfig2Byte : Byte
  /-- `modemConfig3Byte` (D7) -/
  modemConfig3Byte : Byte
  /-- `txPollBound` (D13); `none` polls without end, as the source does -/
  txPollBound : Option Nat
  /-- `maxFrameLen`, the frame bound of an `encode` whose caller gives none, 1 to 255 (D14, R137; log 31) -/
  maxFrameLen : Nat
  /-- `parseFailPolicy` (D15) -/
  parseFailPolicy : ParsePolicy
  /-- `rxPlacement` (D9) -/
  rxPlacement : Placement
  /-- `busReliable` (D11, R77) -/
  busReliable : Bool
  deriving DecidableEq, Repr, Inhabited

/-- The defaults of R6; logs 3 to 9 name each one. -/
def Params.default : Params where
  regMap := RegMap.default
  codes := ModeCodes.default
  txDoneBit := 3
  rxDoneBit := 6
  chipId := 0x12#8
  devId := 0x12#8
  freqHz := 915000000
  paConfigByte := 0x8F#8
  modemConfig1Byte := 0x72#8
  modemConfig2Byte := 0x70#8
  modemConfig3Byte := 0x04#8
  txPollBound := none
  maxFrameLen := 96
  parseFailPolicy := .reject
  rxPlacement := .anywhere
  busReliable := true

/-- Whose turn is next (R12, R50, R165; log 12). -/
inductive Turn where
  /-- the controller takes one step -/
  | controller
  /-- the device completes a transmission, if it may (R123) -/
  | txComplete
  /-- the medium delivers a frame, if it may (R125) -/
  | rxDeliver
  /-- the host offers a request at the port (R73) -/
  | hostRequest
  /-- the host calls the codec (R73, R152) -/
  | hostCodecCall
  /-- the host takes the result (R33) -/
  | hostTakesResult
  deriving DecidableEq, Repr, Inhabited

/-- What an unreliable bus does with a write (R77). -/
inductive WriteFate where
  /-- it takes effect with the byte sent -/
  | asSent
  /-- it takes effect with a drawn byte -/
  | altered
  /-- it has no effect -/
  | lost
  deriving DecidableEq, Repr, Inhabited

namespace Config

/-- `xtalHz`, fixed by §4.2 "32MHz" (R6). -/
def xtalHz : Nat := 32000000

/-- `preambleLen`, fixed by §6 "preamble length 8 symbols" (R6, R64). -/
def preambleLen : BitVec 16 := 8#16

/-- `txBase`, fixed by §4.2 "both zero" (R6). -/
def txBase : Byte := 0x00#8

/-- `rxBase`, fixed by §4.2 "both zero" (R6). -/
def rxBase : Byte := 0x00#8

/-- `maxFrame`, fixed by §3 "length 0-255" (R6). -/
def maxFrame : Nat := 255

/-- `fifoSize` (R6, D6). -/
def fifoSize : Nat := 256

/-- `lrBit` = 7: R19 and R80 leave no other place beside the fields 6:3 and 2:0 (log 4). -/
def lrBit : Nat := 7

/-- `tag`, fixed by §4.4: the ASCII bytes of TS (R6). -/
def tag : List Byte := [0x54#8, 0x53#8]

/-- FREE VALUE: the n-th drawn byte (R10 `draw()`; log 13). -/
opaque freeByte : Nat → Byte

/-- FREE VALUE: whose turn is drawn n-th (log 12). -/
opaque freeTurn : Nat → Turn

/-- FREE VALUE: the byte list the medium offers at draw n (R125; log 24). -/
opaque freeFrame : Nat → List Byte

/-- FREE VALUE: what an aborted transmission emits at draw n: nothing, or a first part of this length (R124; log 25). -/
opaque freeEmission : Nat → Option Nat

/-- FREE VALUE: what an unreliable bus does with a write at draw n (R77; log 26). -/
opaque freeFate : Nat → WriteFate

/-- FREE VALUE: the request the host offers at draw n (R73; log 17). -/
opaque freeRequest : Nat → Request

/-- FREE VALUE: the codec call the host makes at draw n (R73; log 17). -/
opaque freeCodecCall : Nat → CodecCall

end Config

end Sys2Proof
end

