-- ==== Sys2Proof/Machine/Frequency.lean ====
section
/-! DEFINITION. The frequency word (R63), which the checks on the parameters and the controller share. -/

namespace Sys2Proof.Machine

/-- `round(freqHz * 2^19 / xtalHz)`, exact quotient, nearest, a tie going up (R63). The literals stand on the left of each
operation, so that Lean's kernel stops at an unknown frequency and does not count down from them. -/
def frfNumber (freqHz : Nat) : Nat := (Config.xtalHz + 2 * (2 ^ 19 * freqHz)) / (2 * Config.xtalHz)

/-- The frequency word fits 24 bits, `frf < 2^24` (R63): nothing of it is left above bit 23. -/
def frfFits (freqHz : Nat) : Bool := frfNumber freqHz / 2 ^ 24 == 0

/-- The 24-bit frequency word (R63). -/
def frfWord (freqHz : Nat) : BitVec 24 := BitVec.ofNat 24 (frfNumber freqHz)

end Sys2Proof.Machine
end

