-- ==== Sys2Proof/WellFormed.lean ====
section
/-! DEFINITION. What the spec requires of an instruction's operands and of the parameters. -/

namespace Sys2Proof

/-- A frame bound is 1 to 255 (R6, R137, D14). -/
def maxFrameLenOk (n : Nat) : Bool := decide (1 ≤ n ∧ n ≤ Config.maxFrame)

/-- The tag of a record is always the literal TS (R133). -/
def TelemetryRecord.tagOk (r : TelemetryRecord) : Bool := decide (r.tag = Config.tag)

/-- The checks on an instruction; a transaction's operand is any byte, `send` takes any length (R128) and `tryReceive`
any number (0 is refused when it runs, R129). -/
def Instr.wf : Instr → Bool
  | .encode rec n => rec.tagOk && maxFrameLenOk n
  | _ => true

/-- The bound a codec call gives, if it gives one, is 1 to 255 (R137). -/
def CodecCall.boundOk : CodecCall → Bool
  | .encode _ (some n) => maxFrameLenOk n
  | .encode _ none => true
  | .decode _ => true

/-- `regAddr` is injective (R60, D2). -/
def RegMap.wf (m : RegMap) : Bool := decide (RegName.all.map m.addr).Nodup

/-- The four mode codes differ (R19, D4). -/
def ModeCodes.wf (c : ModeCodes) : Bool := decide [c.sleep, c.standby, c.transmit, c.receiveContinuous].Nodup

/-- The two done flags have different bits (D5). -/
def Params.bitsOk (p : Params) : Bool := decide (p.txDoneBit ≠ p.rxDoneBit)

/-- A poll bound is at least 1 (D13). -/
def Params.pollOk (p : Params) : Bool :=
  match p.txPollBound with
  | none => true
  | some k => decide (1 ≤ k)

/-- The frequency word fits 24 bits, else the configuration is refused at build (R63). -/
def Params.freqOk (p : Params) : Bool := Machine.frfFits p.freqHz

/-- `maxFrameLen` is 1 to 255 (R6, D14). -/
def Params.frameOk (p : Params) : Bool := maxFrameLenOk p.maxFrameLen

/-- All checks on the parameters. -/
def Params.wf (p : Params) : Bool := p.regMap.wf && p.codes.wf && p.bitsOk && p.pollOk && p.freqOk && p.frameOk

end Sys2Proof
end

