-- ==== Sys2Proof/Decode.lean ====
section
/-! DEFINITION. The two-byte transaction format (R55 to R58): the decoder, total on any bytes, and the encoder. -/

namespace Sys2Proof

/-- Bit 7 of byte 0 is the direction: 1 writes (R55). -/
def directionOf (b0 : Byte) : Bool := b0.msb

/-- Bits 6:0 of byte 0 are the address (R55). -/
def addressOf (b0 : Byte) : RegAddr := b0.setWidth 7

/-- Byte 0 of a transaction (R56): the address below the direction bit. -/
def byte0 (isWrite : Bool) (a : RegAddr) : Byte := (BitVec.ofBool isWrite) ++ a

/-- The register with address `a`, if `regAddr` maps one there (R74, R66). -/
def RegMap.find (m : RegMap) (a : RegAddr) : Option RegName := RegName.all.find? (fun r => m.addr r == a)

/-- The read of register `r` with the dummy byte `d` (R79 to R97). -/
def Instr.ofRead (d : Byte) : RegName → Instr
  | .fifo => .rdFifo d
  | .opMode => .rdOpMode d
  | .frfMsb => .rdFrfMsb d
  | .frfMid => .rdFrfMid d
  | .frfLsb => .rdFrfLsb d
  | .paConfig => .rdPaConfig d
  | .fifoAddrPtr => .rdFifoAddrPtr d
  | .fifoTxBaseAddr => .rdFifoTxBaseAddr d
  | .fifoRxBaseAddr => .rdFifoRxBaseAddr d
  | .fifoRxCurrentAddr => .rdFifoRxCurrentAddr d
  | .irqFlags => .rdIrqFlags d
  | .rxNbBytes => .rdRxNbBytes d
  | .modemConfig1 => .rdModemConfig1 d
  | .modemConfig2 => .rdModemConfig2 d
  | .preambleMsb => .rdPreambleMsb d
  | .preambleLsb => .rdPreambleLsb d
  | .payloadLength => .rdPayloadLength d
  | .modemConfig3 => .rdModemConfig3 d
  | .version => .rdVersion d

/-- The write of `v` to register `r` (R98 to R116). -/
def Instr.ofWrite (v : Byte) : RegName → Instr
  | .fifo => .wrFifo v
  | .opMode => .wrOpMode v
  | .frfMsb => .wrFrfMsb v
  | .frfMid => .wrFrfMid v
  | .frfLsb => .wrFrfLsb v
  | .paConfig => .wrPaConfig v
  | .fifoAddrPtr => .wrFifoAddrPtr v
  | .fifoTxBaseAddr => .wrFifoTxBaseAddr v
  | .fifoRxBaseAddr => .wrFifoRxBaseAddr v
  | .fifoRxCurrentAddr => .wrFifoRxCurrentAddr v
  | .irqFlags => .wrIrqFlags v
  | .rxNbBytes => .wrRxNbBytes v
  | .modemConfig1 => .wrModemConfig1 v
  | .modemConfig2 => .wrModemConfig2 v
  | .preambleMsb => .wrPreambleMsb v
  | .preambleLsb => .wrPreambleLsb v
  | .payloadLength => .wrPayloadLength v
  | .modemConfig3 => .wrModemConfig3 v
  | .version => .wrVersion v

/-- The instruction of a direction, a register and byte 1. -/
def Instr.ofTransaction (isWrite : Bool) (r : RegName) (b1 : Byte) : Instr :=
  if isWrite then Instr.ofWrite b1 r else Instr.ofRead b1 r

/-- What the decoder answers. -/
inductive Decoded where
  /-- an instruction, and the bytes after it -/
  | instr (i : Instr) (rest : List Byte)
  /-- a transaction to an address no register has (R66), and the bytes after it -/
  | unmapped (isWrite : Bool) (a : RegAddr) (rest : List Byte)
  /-- fewer than two bytes: no whole transaction (R59, R70) -/
  | incomplete
  deriving DecidableEq, Repr

/-- The decoder always takes two bytes (R70). -/
def decode (m : RegMap) : List Byte → Decoded
  | b0 :: b1 :: rest =>
    match m.find (addressOf b0) with
    | some r => .instr (Instr.ofTransaction (directionOf b0) r b1) rest
    | none => .unmapped (directionOf b0) (addressOf b0) rest
  | _ => .incomplete

/-- Direction, register and byte 1 of a transaction; a host request has no bit pattern (R73). -/
def Instr.transaction? : Instr → Option (Bool × RegName × Byte)
  | .rdFifo d => some (false, .fifo, d)
  | .rdOpMode d => some (false, .opMode, d)
  | .rdFrfMsb d => some (false, .frfMsb, d)
  | .rdFrfMid d => some (false, .frfMid, d)
  | .rdFrfLsb d => some (false, .frfLsb, d)
  | .rdPaConfig d => some (false, .paConfig, d)
  | .rdFifoAddrPtr d => some (false, .fifoAddrPtr, d)
  | .rdFifoTxBaseAddr d => some (false, .fifoTxBaseAddr, d)
  | .rdFifoRxBaseAddr d => some (false, .fifoRxBaseAddr, d)
  | .rdFifoRxCurrentAddr d => some (false, .fifoRxCurrentAddr, d)
  | .rdIrqFlags d => some (false, .irqFlags, d)
  | .rdRxNbBytes d => some (false, .rxNbBytes, d)
  | .rdModemConfig1 d => some (false, .modemConfig1, d)
  | .rdModemConfig2 d => some (false, .modemConfig2, d)
  | .rdPreambleMsb d => some (false, .preambleMsb, d)
  | .rdPreambleLsb d => some (false, .preambleLsb, d)
  | .rdPayloadLength d => some (false, .payloadLength, d)
  | .rdModemConfig3 d => some (false, .modemConfig3, d)
  | .rdVersion d => some (false, .version, d)
  | .wrFifo v => some (true, .fifo, v)
  | .wrOpMode v => some (true, .opMode, v)
  | .wrFrfMsb v => some (true, .frfMsb, v)
  | .wrFrfMid v => some (true, .frfMid, v)
  | .wrFrfLsb v => some (true, .frfLsb, v)
  | .wrPaConfig v => some (true, .paConfig, v)
  | .wrFifoAddrPtr v => some (true, .fifoAddrPtr, v)
  | .wrFifoTxBaseAddr v => some (true, .fifoTxBaseAddr, v)
  | .wrFifoRxBaseAddr v => some (true, .fifoRxBaseAddr, v)
  | .wrFifoRxCurrentAddr v => some (true, .fifoRxCurrentAddr, v)
  | .wrIrqFlags v => some (true, .irqFlags, v)
  | .wrRxNbBytes v => some (true, .rxNbBytes, v)
  | .wrModemConfig1 v => some (true, .modemConfig1, v)
  | .wrModemConfig2 v => some (true, .modemConfig2, v)
  | .wrPreambleMsb v => some (true, .preambleMsb, v)
  | .wrPreambleLsb v => some (true, .preambleLsb, v)
  | .wrPayloadLength v => some (true, .payloadLength, v)
  | .wrModemConfig3 v => some (true, .modemConfig3, v)
  | .wrVersion v => some (true, .version, v)
  | .reset => none
  | .init => none
  | .setMode _ => none
  | .send _ => none
  | .tryReceive _ => none
  | .encode _ _ => none
  | .decode _ => none

/-- The two bytes of a transaction (R55, R56, R57). -/
def encodeInstr (m : RegMap) (i : Instr) : Option (Byte × Byte) :=
  match i.transaction? with
  | some (w, r, b1) => some (byte0 w (m.addr r), b1)
  | none => none

/-- The two bytes of the 16-bit word `T = byte0 * 256 + byte1` of the opcode table (R55). -/
def wordBytes (w : Nat) : List Byte := [BitVec.ofNat 8 (w / 256), BitVec.ofNat 8 w]

/-- The instruction the decoder reads, at the default addresses, from a transaction whose bits are `w`, numbered as
spec/opcode_table.json numbers them: T[15] is the direction, T[14:8] the address, T[7:0] byte 1 (R55). Bits at and
above `nbits` are 0. -/
def decodeTableWord (nbits w : Nat) : Option Instr :=
  if nbits = 0 ∨ 65536 ≤ w % 2 ^ nbits then none
  else
    match decode RegMap.default (wordBytes (w % 2 ^ nbits)) with
    | .instr i _ => some i
    | .unmapped _ _ _ => none
    | .incomplete => none

end Sys2Proof
end

