-- ==== Sys2Proof/Machine/State.lean ====
section
/-! DEFINITION. The state of one node (R15): device, controller, medium history, fault marks, and what the host has offered;
with the parameters (cfg) and the model's own fields (turn, free). Plain data. -/

namespace Sys2Proof.Machine

/-- Why a node faults (R145). A fault is taken in a next state that holds the mark; a step of a marked node answers
`.fault`. All are safe: the model stops where the chip may go on (D51). -/
inductive Fault where
  /-- F1: a transaction while NRESET is low (R76); raised by every transaction. Safe. -/
  | txnDuringReset
  /-- F2: a configuration write in Transmit or ReceiveContinuous (R78); raised by the eleven configuration writes. Safe. -/
  | configWhileActive
  /-- F3: FIFO access in Sleep (R79, R98); raised by RD_FIFO and WR_FIFO. Safe. -/
  | fifoInSleep
  /-- F4: FIFO access in Transmit (R79, R98); raised by RD_FIFO and WR_FIFO. Safe. -/
  | fifoDuringTransmit
  /-- F5: FIFO access with the pointer Unknown (R79, R98); raised by RD_FIFO and WR_FIFO. Safe. -/
  | pointerUnknown
  /-- F6: PAYLOAD_LENGTH written in Transmit (R114); raised by WR_PAYLOAD_LENGTH. Safe. -/
  | lengthDuringTransmit
  /-- F7: an OP_MODE write that changes lr outside Sleep (R120); raised by WR_OP_MODE. Safe. -/
  | longRangeChangeOutsideSleep
  /-- F8: an OP_MODE write on a fault cell of R121; raised by WR_OP_MODE. Safe. -/
  | modeTransitionOffDiagram
  /-- F9: Transmit entered with PAYLOAD_LENGTH Unknown (R122); raised by WR_OP_MODE. Safe. -/
  | lengthUnknown
  /-- F10: Transmit entered with FIFO_TX_BASE_ADDR Unknown (R122); raised by WR_OP_MODE. Safe. -/
  | txBaseUnknown
  /-- F11: a host request in a lifecycle state that does not take it (R151); raised by reset, init, setMode, send,
  tryReceive. Safe. -/
  | requestInWrongState
  /-- The model's own: a sequencer position outside the operation's step list (R32); answered by a controller turn, never
  from a state a run reaches (log 22). Safe. -/
  | noSuchStep
  deriving DecidableEq, Repr, Inhabited

/-- Why a run is refused (R146). A refusal is taken in a next state that holds the mark; a step of a marked node answers
`.refused`. All are safe: the spelling has no meaning and the run ends (D51). -/
inductive Refusal where
  /-- An instruction without a meaning in this model; only the dispatcher may answer it. Safe. -/
  | notModelled (mnemonic : String)
  /-- X1: a transaction to an address no register has (R66); raised by the Register Bus. Safe. -/
  | unmappedRegister
  /-- X2: an OP_MODE write with a reserved mode code (R67); raised by WR_OP_MODE. Safe. -/
  | reservedMode
  /-- X3: Transmit or ReceiveContinuous with lr = 0 (R120); raised by WR_OP_MODE. Safe. -/
  | legacyModeUnmodelled
  /-- X4: a write to FIFO_RX_CURRENT_ADDR, RX_NB_BYTES or VERSION (R107, R109, R116). Safe. -/
  | writeToReadOnly
  /-- X5: tryReceive(0) (R129). Safe. -/
  | maxLengthZero
  /-- X6: the frequency word needs more than 24 bits (R63); raised at build, and by init (log 8). Safe. -/
  | frequencyOutOfRange
  /-- X7: an 8-bit address operand with bit 7 set (R56); raised by the Register Bus's own calls. Safe. -/
  | addressBit7Set
  deriving DecidableEq, Repr, Inhabited

/-- A register or buffer value: a known one, or Unknown (R16). -/
inductive Cell (w : Nat) where
  | known (v : BitVec w)
  | unknown
  deriving DecidableEq, Repr, Inhabited

/-- The level of the device's reset input (R29). -/
inductive Line where
  | released | asserted
  deriving DecidableEq, Repr, Inhabited

/-- The storage registers of R18: every register but FIFO (a port), OP_MODE (R19), IRQ_FLAGS (R21) and VERSION (R25). -/
structure Regs where
  frfMsb : Cell 8
  frfMid : Cell 8
  frfLsb : Cell 8
  paConfig : Cell 8
  fifoAddrPtr : Cell 8
  fifoTxBaseAddr : Cell 8
  fifoRxBaseAddr : Cell 8
  fifoRxCurrentAddr : Cell 8
  rxNbBytes : Cell 8
  modemConfig1 : Cell 8
  modemConfig2 : Cell 8
  modemConfig3 : Cell 8
  preambleMsb : Cell 8
  preambleLsb : Cell 8
  payloadLength : Cell 8
  deriving DecidableEq, Repr, Inhabited

/-- The names of the storage registers. -/
inductive StoreReg where
  | frfMsb
  | frfMid
  | frfLsb
  | paConfig
  | fifoAddrPtr
  | fifoTxBaseAddr
  | fifoRxBaseAddr
  | fifoRxCurrentAddr
  | rxNbBytes
  | modemConfig1
  | modemConfig2
  | modemConfig3
  | preambleMsb
  | preambleLsb
  | payloadLength
  deriving DecidableEq, Repr, Inhabited

/-- The frame buffer (R26) as listed (offset, byte) pairs, offsets strictly rising and below 256; a byte that is not listed
is Unknown. -/
abbrev Memory := List Host.Cell

/-- The transceiver device (R15, R18 to R29). -/
structure Dev where
  lr : Bool
  mid : Cell 4
  mode : Mode
  regs : Regs
  txDone : Bool
  rxDone : Bool
  fifo : Memory
  txJob : Option (List Byte)
  resetLine : Line
  deriving DecidableEq, Repr, Inhabited

/-- The lifecycle of the block (R30). -/
inductive Life where
  | uninit | ready | halted
  deriving DecidableEq, Repr, Inhabited

/-- The temporaries of a running operation (R31; `id` is init's, R118). -/
structure Locals where
  flags : Byte
  n : Byte
  k : Nat
  addr : Byte
  polls : Nat
  out : List Byte
  id : Byte
  deriving DecidableEq, Repr, Inhabited

/-- The operation in progress (R31): its request with the arguments, its step `pc`, the sub-step within the step (4.i, 5a,
5b, 6.i of 42_framer.md; the steps of reset within init's step 1), and its locals. -/
inductive Op where
  | idle
  | running (req : Request) (pc : Nat) (sub : Nat) (loc : Locals)
  deriving DecidableEq, Repr, Inhabited

/-- The result of an operation (R144). -/
inductive Result where
  | ok
  | success
  | tooLarge
  | timeout
  | chipNotDetected
  | noFrame
  | frame (bytes : List Byte) (truncated : Bool)
  | encoded (bytes : List Byte)
  | nonFinite
  | tooLong
  | decoded (rec : DecodedRecord)
  | tagMismatch
  | fieldCount
  | badNumber
  deriving DecidableEq, Repr, Inhabited

/-- The controller (R30 to R33). -/
structure Ctl where
  life : Life
  op : Op
  result : Option Result
  deriving DecidableEq, Repr, Inhabited

/-- What the device handed to the medium (R34). -/
inductive Emission where
  | full (bytes : List Byte)
  | part (bytes : List Byte)
  deriving DecidableEq, Repr, Inhabited

/-- The bytes the device returned in the last transaction, during byte 0 and during byte 1 (R58). -/
structure BusIn where
  resp0 : Byte
  resp1 : Byte
  deriving DecidableEq, Repr, Inhabited

/-- One node (R15), with its parameters and the model's own fields. -/
structure State where
  /-- the parameters (R6, R36); no step writes them -/
  cfg : Params
  /-- the device -/
  dev : Dev
  /-- the controller -/
  ctl : Ctl
  /-- `air.emitted` (R34) -/
  air : List Emission
  /-- the sticky fault mark (R145) -/
  fault : Option Fault
  /-- the sticky refusal mark with its reason (R146; log 11) -/
  refusal : Option Refusal
  /-- the device's response bytes (R58) -/
  bus : BusIn
  /-- the requests held at the host port, oldest first (R152) -/
  port : List Request
  /-- the codec calls not yet answered, oldest first (R152; log 19) -/
  calls : List CodecCall
  /-- the accesses given to the Register Bus directly, oldest first (log 18) -/
  busCalls : List BusCall
  /-- whose turn is next (log 12) -/
  turn : Turn
  /-- how many free values have been drawn (log 13) -/
  free : Nat
  deriving DecidableEq, Repr, Inhabited

/-- `refused` of R15. -/
def State.refused (s : State) : Bool := s.refusal.isSome

/-- A node that a fault or a refusal has stopped (R145, R146). -/
def State.stopped (s : State) : Bool := s.fault.isSome || s.refusal.isSome

/-- Every storage register is Unknown after reset (R37). -/
def Regs.reset : Regs where
  frfMsb := .unknown
  frfMid := .unknown
  frfLsb := .unknown
  paConfig := .unknown
  fifoAddrPtr := .unknown
  fifoTxBaseAddr := .unknown
  fifoRxBaseAddr := .unknown
  fifoRxCurrentAddr := .unknown
  rxNbBytes := .unknown
  modemConfig1 := .unknown
  modemConfig2 := .unknown
  modemConfig3 := .unknown
  preambleMsb := .unknown
  preambleLsb := .unknown
  payloadLength := .unknown

/-- The device's reset state (R37). -/
def Dev.reset : Dev where
  lr := false
  mid := .unknown
  mode := .sleep
  regs := Regs.reset
  txDone := false
  rxDone := false
  fifo := []
  txJob := none
  resetLine := .released

/-- The controller at power-on (R37). -/
def Ctl.reset : Ctl where
  life := .uninit
  op := .idle
  result := none

/-- The locals before the operation writes them (R31: undefined; log 21). -/
def Locals.blank : Locals where
  flags := 0#8
  n := 0#8
  k := 0
  addr := 0#8
  polls := 0
  out := []
  id := 0#8

/-- Power-on (R161, R37) of a node with the default parameters (R6). -/
def State.reset : State where
  cfg := Params.default
  dev := Dev.reset
  ctl := Ctl.reset
  air := []
  fault := none
  refusal := none
  bus := ⟨0#8, 0#8⟩
  port := []
  calls := []
  busCalls := []
  turn := .controller
  free := 0

end Sys2Proof.Machine
end

