-- ==== Sys2Proof/Machine/Ops.lean ====
section
/-! DEFINITION. The named operations over the state: updates, registers, the frame buffer, draws, taking a fault or a refusal,
finishing an operation, and one serial transaction around a register's own rule. -/

namespace Sys2Proof.Machine

/-- What exec and step answer. -/
abbrev Answer := Host.Outcome State Fault Refusal

/-! ## Updates, one field each -/

/-- Replace the device. -/
def State.setDev (s : State) (d : Dev) : State := { s with dev := d }

/-- Replace the controller. -/
def State.setCtl (s : State) (c : Ctl) : State := { s with ctl := c }

/-- Replace the emission history. -/
def State.setAir (s : State) (e : List Emission) : State := { s with air := e }

/-- Set the fault mark. -/
def State.setFault (s : State) (f : Option Fault) : State := { s with fault := f }

/-- Set the refusal mark. -/
def State.setRefusal (s : State) (r : Option Refusal) : State := { s with refusal := r }

/-- Replace the response bytes. -/
def State.setBus (s : State) (b : BusIn) : State := { s with bus := b }

/-- Replace the port's requests. -/
def State.setPort (s : State) (p : List Request) : State := { s with port := p }

/-- Replace the pending codec calls. -/
def State.setCalls (s : State) (c : List CodecCall) : State := { s with calls := c }

/-- Replace the pending bus accesses. -/
def State.setBusCalls (s : State) (b : List BusCall) : State := { s with busCalls := b }

/-- Say whose turn is next. -/
def State.setTurn (s : State) (t : Turn) : State := { s with turn := t }

/-- Set the draw counter. -/
def State.setFree (s : State) (n : Nat) : State := { s with free := n }

/-- Set the operation in progress. -/
def State.setOp (s : State) (o : Op) : State := s.setCtl { s.ctl with op := o }

/-- Set the lifecycle. -/
def State.setLife (s : State) (l : Life) : State := s.setCtl { s.ctl with life := l }

/-- Set the result. -/
def State.setResult (s : State) (r : Option Result) : State := s.setCtl { s.ctl with result := r }

/-- Set the reset line (R29). -/
def State.setLine (s : State) (l : Line) : State := s.setDev { s.dev with resetLine := l }

/-- Replace the storage registers. -/
def State.setRegs (s : State) (r : Regs) : State := s.setDev { s.dev with regs := r }

/-- Replace the frame buffer. -/
def State.setFifo (s : State) (m : Memory) : State := s.setDev { s.dev with fifo := m }

/-! ## Registers -/

/-- What a storage register holds (R18). -/
def Regs.get (g : Regs) : StoreReg → Cell 8
  | .frfMsb => g.frfMsb
  | .frfMid => g.frfMid
  | .frfLsb => g.frfLsb
  | .paConfig => g.paConfig
  | .fifoAddrPtr => g.fifoAddrPtr
  | .fifoTxBaseAddr => g.fifoTxBaseAddr
  | .fifoRxBaseAddr => g.fifoRxBaseAddr
  | .fifoRxCurrentAddr => g.fifoRxCurrentAddr
  | .rxNbBytes => g.rxNbBytes
  | .modemConfig1 => g.modemConfig1
  | .modemConfig2 => g.modemConfig2
  | .modemConfig3 => g.modemConfig3
  | .preambleMsb => g.preambleMsb
  | .preambleLsb => g.preambleLsb
  | .payloadLength => g.payloadLength

/-- Store into a storage register (R18). -/
def Regs.set (g : Regs) (c : Cell 8) : StoreReg → Regs
  | .frfMsb => { g with frfMsb := c }
  | .frfMid => { g with frfMid := c }
  | .frfLsb => { g with frfLsb := c }
  | .paConfig => { g with paConfig := c }
  | .fifoAddrPtr => { g with fifoAddrPtr := c }
  | .fifoTxBaseAddr => { g with fifoTxBaseAddr := c }
  | .fifoRxBaseAddr => { g with fifoRxBaseAddr := c }
  | .fifoRxCurrentAddr => { g with fifoRxCurrentAddr := c }
  | .rxNbBytes => { g with rxNbBytes := c }
  | .modemConfig1 => { g with modemConfig1 := c }
  | .modemConfig2 => { g with modemConfig2 := c }
  | .modemConfig3 => { g with modemConfig3 := c }
  | .preambleMsb => { g with preambleMsb := c }
  | .preambleLsb => { g with preambleLsb := c }
  | .payloadLength => { g with payloadLength := c }

/-- The register's name on the bus. -/
def StoreReg.name : StoreReg → RegName
  | .frfMsb => .frfMsb
  | .frfMid => .frfMid
  | .frfLsb => .frfLsb
  | .paConfig => .paConfig
  | .fifoAddrPtr => .fifoAddrPtr
  | .fifoTxBaseAddr => .fifoTxBaseAddr
  | .fifoRxBaseAddr => .fifoRxBaseAddr
  | .fifoRxCurrentAddr => .fifoRxCurrentAddr
  | .rxNbBytes => .rxNbBytes
  | .modemConfig1 => .modemConfig1
  | .modemConfig2 => .modemConfig2
  | .modemConfig3 => .modemConfig3
  | .preambleMsb => .preambleMsb
  | .preambleLsb => .preambleLsb
  | .payloadLength => .payloadLength

/-- The configuration registers (R22). -/
def StoreReg.isConfig : StoreReg → Bool
  | .frfMsb => true
  | .frfMid => true
  | .frfLsb => true
  | .paConfig => true
  | .fifoAddrPtr => false
  | .fifoTxBaseAddr => true
  | .fifoRxBaseAddr => true
  | .fifoRxCurrentAddr => false
  | .rxNbBytes => false
  | .modemConfig1 => true
  | .modemConfig2 => true
  | .modemConfig3 => true
  | .preambleMsb => true
  | .preambleLsb => true
  | .payloadLength => false

/-- What a storage register of the device holds. -/
def State.reg (s : State) (r : StoreReg) : Cell 8 := s.dev.regs.get r

/-- Store a known byte into a storage register of the device (R16: a write makes the cell known). -/
def State.setReg (s : State) (r : StoreReg) (v : Byte) : State := s.setRegs (s.dev.regs.set (.known v) r)

/-! ## The frame buffer -/

/-- Buffer byte `a`: the listed byte, else Unknown (R26, R16). -/
def Memory.read : Memory → Nat → Cell 8
  | [], _ => .unknown
  | (k, v) :: m, a => if k = a then .known v else Memory.read m a

/-- Write a byte at offset `a`, keeping the list in order. -/
def Memory.write : Memory → Nat → Byte → Memory
  | [], a, v => [(a, v)]
  | (k, w) :: m, a, v =>
    if a < k then (a, v) :: (k, w) :: m
    else if a = k then (a, v) :: m
    else (k, w) :: Memory.write m a v

/-- Offsets from `lo` on, strictly rising, below the buffer's size. -/
def Memory.wfFrom : Nat → Memory → Bool
  | _, [] => true
  | lo, (k, _) :: m => decide (lo ≤ k ∧ k < Config.fifoSize) && Memory.wfFrom (k + 1) m

/-- The canonical form of the buffer. -/
def Memory.wf (m : Memory) : Bool := Memory.wfFrom 0 m

/-- The buffer byte at an 8-bit offset. -/
def State.buf (s : State) (p : Byte) : Cell 8 := s.dev.fifo.read p.toNat

/-- Store a byte at an 8-bit offset of the buffer. -/
def State.setBuf (s : State) (p : Byte) (v : Byte) : State := s.setFifo (s.dev.fifo.write p.toNat v)

/-- Store bytes at consecutive offsets from `p` on, wrapping at 256 (R43, R125). -/
def Memory.writeBytes : Memory → Byte → List Byte → Memory
  | m, _, [] => m
  | m, p, v :: vs => Memory.writeBytes (m.write p.toNat v) (p + 1) vs

/-! ## Draws -/

/-- A free value has been used (R10 `draw()`; log 13). -/
def State.tick (s : State) : State := s.setFree (s.free + 1)

/-- Draw a byte. -/
def State.draw (s : State) : Byte × State := (Config.freeByte s.free, s.tick)

/-- `valueOf` a byte cell: a known byte, else a draw, the cell staying Unknown (R16). -/
def State.valueOf (s : State) : Cell 8 → Byte × State
  | .known v => (v, s)
  | .unknown => s.draw

/-- `valueOf` a four-bit cell (R80). -/
def State.nibbleOf (s : State) : Cell 4 → BitVec 4 × State
  | .known v => (v, s)
  | .unknown => ((Config.freeByte s.free).setWidth 4, s.tick)

/-! ## Faults, refusals, results -/

/-- `raise Fault(f)` (R145): the mark is set, the running operation ends with no result, nothing else changes. There is no
vector, no saved state and no return from it (R150). -/
def raise (f : Fault) (s : State) : Answer := .next ((s.setFault (some f)).setOp .idle)

/-- `refuse(r)` (R146): the run is marked and the node stops, as a fault does. -/
def refuse (r : Refusal) (s : State) : Answer := .next ((s.setRefusal (some r)).setOp .idle)

/-- End the operation with a result (R144). -/
def State.finish (s : State) (r : Result) : State := (s.setResult (some r)).setOp .idle

/-- The result code for a host port that carries one (R144). -/
def resultCode : Result → Nat
  | .ok => 0
  | .success => 0
  | .encoded _ => 0
  | .decoded _ => 0
  | .tooLarge => 1
  | .timeout => 2
  | .chipNotDetected => 3
  | .noFrame => 4
  | .frame _ _ => 5
  | .nonFinite => 6
  | .tooLong => 7
  | .tagMismatch => 8
  | .fieldCount => 9
  | .badNumber => 10

/-- The number in the fault codes F1 to F11 (R145); the model's own fault has none. -/
def faultCode : Fault → Option Nat
  | .txnDuringReset => some 1
  | .configWhileActive => some 2
  | .fifoInSleep => some 3
  | .fifoDuringTransmit => some 4
  | .pointerUnknown => some 5
  | .lengthDuringTransmit => some 6
  | .longRangeChangeOutsideSleep => some 7
  | .modeTransitionOffDiagram => some 8
  | .lengthUnknown => some 9
  | .txBaseUnknown => some 10
  | .requestInWrongState => some 11
  | .noSuchStep => none

/-- The number in the refusal codes X1 to X7 (R146). -/
def refusalCode : Refusal → Option Nat
  | .unmappedRegister => some 1
  | .reservedMode => some 2
  | .legacyModeUnmodelled => some 3
  | .writeToReadOnly => some 4
  | .maxLengthZero => some 5
  | .frequencyOutOfRange => some 6
  | .addressBit7Set => some 7
  | _ => none

/-! ## One transaction -/

/-- What a register's own rule gives: a value with the state after it, a fault, or a refusal. -/
inductive Acc (α : Type) where
  | done (a : α)
  | fault (f : Fault)
  | refuse (r : Refusal)
  deriving Repr

/-- The response bytes of a read (R58): byte 0 a draw, byte 1 the read result. -/
def State.respond (s : State) (v : Byte) : State := (s.setBus ⟨Config.freeByte s.free, v⟩).tick

/-- The response bytes of a write (R58): both are draws. -/
def State.respondDrawn (s : State) : State :=
  (s.setBus ⟨Config.freeByte s.free, Config.freeByte (s.free + 1)⟩).tick.tick

/-- What the controller gets of a read result: the result, or any byte on an unreliable bus (R77). -/
def State.received (s : State) (v : Byte) : State :=
  if s.cfg.busReliable then s.respond v else s.draw.2.respond s.draw.1

/-- `BusRead` around the register's rule (R74, R76, R77, R149). -/
def transRead (rule : State → Acc (Byte × State)) (s : State) : Answer :=
  match s.dev.resetLine with
  | .asserted => raise .txnDuringReset s
  | .released =>
    match rule s with
    | .done (v, t) => .next (t.received v)
    | .fault f => raise f s
    | .refuse r => refuse r s

/-- The register's write rule as the bus carries the byte to it (R75, R77): as sent, altered, or not at all. -/
def carryWrite (rule : Byte → State → Acc State) (v : Byte) (s : State) : Acc State :=
  if s.cfg.busReliable then rule v s
  else
    match Config.freeFate s.free with
    | .asSent => rule v s.tick
    | .altered => rule s.tick.draw.1 s.tick.draw.2
    | .lost => .done s.tick

/-- `BusWrite` around the register's rule (R75, R76, R77, R149). -/
def transWrite (rule : Byte → State → Acc State) (v : Byte) (s : State) : Answer :=
  match s.dev.resetLine with
  | .asserted => raise .txnDuringReset s
  | .released =>
    match carryWrite rule v s with
    | .done t => .next t.respondDrawn
    | .fault f => raise f s
    | .refuse r => refuse r s

/-- A transaction to an address no register has (R66, R74, R75): the reset line is looked at first (R149). -/
def transUnmapped (s : State) : Answer :=
  match s.dev.resetLine with
  | .asserted => raise .txnDuringReset s
  | .released => refuse .unmappedRegister s

end Sys2Proof.Machine
end

