-- ==== Sys2Proof/Machine/Flags.lean ====
section
/-! DEFINITION. The done flags (R21, R35, R62): their masks, testing, reading and write-1-to-clear. -/

namespace Sys2Proof.Machine

/-- A byte with one bit set (R62). -/
def bitMask (i : BitPos) : Byte := 1#8 <<< i.val

/-- `TX_DONE` (R62). -/
def txDoneMask (p : Params) : Byte := bitMask p.txDoneBit

/-- `RX_DONE` (R62). -/
def rxDoneMask (p : Params) : Byte := bitMask p.rxDoneBit

/-- `(byte & mask) != 0` (R62). -/
def testMask (v mask : Byte) : Bool := (v &&& mask) != 0#8

/-- `v` with bit `i` put to `b`. -/
def putBit (v : Byte) (i : BitPos) (b : Bool) : Byte :=
  if b then v ||| bitMask i else v &&& ~~~ bitMask i

/-- The IRQ_FLAGS byte (R89): the two flags at their bits, every other bit a draw. -/
def irqByte (p : Params) (other : Byte) (d : Dev) : Byte :=
  putBit (putBit other p.txDoneBit d.txDone) p.rxDoneBit d.rxDone

/-- A flag after a write: cleared by a 1 at its bit, else kept (R108). -/
def clearedBy (v : Byte) (i : BitPos) (flag : Bool) : Bool := flag && !(v.getLsbD i.val)

/-- Write 1 to clear (R108, R21). -/
def State.clearFlags (s : State) (v : Byte) : State :=
  s.setDev { s.dev with
    txDone := clearedBy v s.cfg.txDoneBit s.dev.txDone
    rxDone := clearedBy v s.cfg.rxDoneBit s.dev.rxDone }

end Sys2Proof.Machine
end

