-- ==== Sys2Proof/Machine/Operands.lean ====
section
/-! DEFINITION. The operand forms: the fields of an OP_MODE byte, the values the controller writes (R61 to R65), and the byte
and address operands of the Register Bus's own calls. -/

namespace Sys2Proof.Machine

/-- `v[2:0]`, the mode code (R19). -/
def modeField (v : Byte) : BitVec 3 := v.extractLsb' 0 3

/-- `v[6:3]`, stored with no effect (R19, R68). -/
def midField (v : Byte) : BitVec 4 := v.extractLsb' 3 4

/-- `v[lrBit]`, the long-range bit (R19). -/
def lrField (v : Byte) : Bool := v.getLsbD Config.lrBit

/-- The mode with a code, if one has it (R67, R120). -/
def modeOfCode (c : ModeCodes) (code : BitVec 3) : Option Mode :=
  [Mode.sleep, .standby, .transmit, .receiveContinuous].find? (fun m => c.code m == code)

/-- The byte an OP_MODE read gives: bit 7, bits 6:3, bits 2:0 (R80). -/
def opModeRead (lr : Bool) (mid : BitVec 4) (code : BitVec 3) : Byte := BitVec.ofBool lr ++ mid ++ code

/-- `opModeByte(m)`, what the controller writes to OP_MODE: long-range, middle bits 0 (R61). -/
def opModeByte (c : ModeCodes) (m : Mode) : Byte :=
  (1#8 <<< Config.lrBit) ||| (c.code m).setWidth 8

/-- A configuration whose frequency word needs more than 24 bits is refused at build (R63, X6; log 8). -/
def buildCheck (p : Params) : Option Refusal := if frfFits p.freqHz then none else some .frequencyOutOfRange

/-- Power-on (R161) of a node built with the parameters `p`: one whose configuration is refused at build carries that
refusal from the start (R63, R146; log 8). -/
def State.powerOn (p : Params) : State := { State.reset with cfg := p, refusal := buildCheck p }

/-- `frf[23:16]` (R42). -/
def frfMsbOf (f : BitVec 24) : Byte := f.extractLsb' 16 8

/-- `frf[15:8]` (R42). -/
def frfMidOf (f : BitVec 24) : Byte := f.extractLsb' 8 8

/-- `frf[7:0]` (R42). -/
def frfLsbOf (f : BitVec 24) : Byte := f.extractLsb' 0 8

/-- `preambleLen[15:8]` (R42, R64). -/
def preambleMsbOf (p : BitVec 16) : Byte := p.extractLsb' 8 8

/-- `preambleLen[7:0]` (R42, R64). -/
def preambleLsbOf (p : BitVec 16) : Byte := p.extractLsb' 0 8

/-- The dummy byte of a read the controller makes (R57). -/
def dummyByte : Byte := 0x00#8

/-- An 8-bit address operand names an address only when bit 7 is clear (R56, D28). -/
def addressOperand (a : Byte) : Option RegAddr := if a.msb then none else some (a.setWidth 7)

/-! ## The pseudo-instructions (R72), each one transaction -/

/-- `SETMODE m` -/
def pseudoSetMode (c : ModeCodes) (m : Mode) : Instr := .wrOpMode (opModeByte c m)

/-- `SETPTR a` -/
def pseudoSetPtr (a : Byte) : Instr := .wrFifoAddrPtr a

/-- `PUSH v` -/
def pseudoPush (v : Byte) : Instr := .wrFifo v

/-- `POP` -/
def pseudoPop : Instr := .rdFifo dummyByte

/-- `CLRIRQ mask` -/
def pseudoClrIrq (mask : Byte) : Instr := .wrIrqFlags mask

/-- `SETLEN n` -/
def pseudoSetLen (n : Byte) : Instr := .wrPayloadLength n

end Sys2Proof.Machine
end

