-- ==== Sys2Proof/Machine/BusReads.lean ====
section
/-! DEFINITION. The nineteen read transactions (R79 to R97). Each ignores its dummy byte (R57). -/

namespace Sys2Proof.Machine

/-- `return valueOf(dev.r[r])` (R81 to R88, R90 to R96). -/
def readStored (r : StoreReg) (s : State) : Acc (Byte × State) := .done (s.valueOf (s.reg r))

/-- The checks of a FIFO access, in order, and the pointer it uses (R79, R98). -/
def fifoAccess (s : State) : Acc Byte :=
  match s.dev.mode with
  | .sleep => .fault .fifoInSleep
  | .transmit => .fault .fifoDuringTransmit
  | .standby | .receiveContinuous =>
    match s.reg .fifoAddrPtr with
    | .unknown => .fault .pointerUnknown
    | .known p => .done p

/-- `Read_FIFO` (R79): the byte at the pointer, which then steps by 1 modulo 256. -/
def readFifo (s : State) : Acc (Byte × State) :=
  match fifoAccess s with
  | .fault f => .fault f
  | .refuse r => .refuse r
  | .done p =>
    match s.valueOf (s.buf p) with
    | (v, t) => .done (v, t.setReg .fifoAddrPtr (p + 1))

/-- The OP_MODE read (R80): the mode in force now. -/
def readOpMode (s : State) : Acc (Byte × State) :=
  match s.nibbleOf s.dev.mid with
  | (mid, t) => .done (opModeRead s.dev.lr mid (s.cfg.codes.code s.dev.mode), t)

/-- `Read_IRQ_FLAGS` (R89): nothing is cleared; the unnamed bits are a draw. -/
def readIrqFlags (s : State) : Acc (Byte × State) :=
  match s.draw with
  | (other, t) => .done (irqByte s.cfg other s.dev, t)

/-- The identity read (R97): the constant `devId`, in every mode. -/
def readVersion (s : State) : Acc (Byte × State) := .done (s.cfg.devId, s)

/-- RD_FIFO (R79) -/
def execRdFifo (_dummy : Byte) (s : State) : Answer := transRead readFifo s

/-- RD_OP_MODE (R80) -/
def execRdOpMode (_dummy : Byte) (s : State) : Answer := transRead readOpMode s

/-- RD_FRF_MSB (R81) -/
def execRdFrfMsb (_dummy : Byte) (s : State) : Answer := transRead (readStored .frfMsb) s

/-- RD_FRF_MID (R82) -/
def execRdFrfMid (_dummy : Byte) (s : State) : Answer := transRead (readStored .frfMid) s

/-- RD_FRF_LSB (R83) -/
def execRdFrfLsb (_dummy : Byte) (s : State) : Answer := transRead (readStored .frfLsb) s

/-- RD_PA_CONFIG (R84) -/
def execRdPaConfig (_dummy : Byte) (s : State) : Answer := transRead (readStored .paConfig) s

/-- RD_FIFO_ADDR_PTR (R85) -/
def execRdFifoAddrPtr (_dummy : Byte) (s : State) : Answer := transRead (readStored .fifoAddrPtr) s

/-- RD_FIFO_TX_BASE_ADDR (R86) -/
def execRdFifoTxBaseAddr (_dummy : Byte) (s : State) : Answer := transRead (readStored .fifoTxBaseAddr) s

/-- RD_FIFO_RX_BASE_ADDR (R87) -/
def execRdFifoRxBaseAddr (_dummy : Byte) (s : State) : Answer := transRead (readStored .fifoRxBaseAddr) s

/-- RD_FIFO_RX_CURRENT_ADDR (R88) -/
def execRdFifoRxCurrentAddr (_dummy : Byte) (s : State) : Answer := transRead (readStored .fifoRxCurrentAddr) s

/-- RD_IRQ_FLAGS (R89) -/
def execRdIrqFlags (_dummy : Byte) (s : State) : Answer := transRead readIrqFlags s

/-- RD_RX_NB_BYTES (R90) -/
def execRdRxNbBytes (_dummy : Byte) (s : State) : Answer := transRead (readStored .rxNbBytes) s

/-- RD_MODEM_CONFIG_1 (R91) -/
def execRdModemConfig1 (_dummy : Byte) (s : State) : Answer := transRead (readStored .modemConfig1) s

/-- RD_MODEM_CONFIG_2 (R92) -/
def execRdModemConfig2 (_dummy : Byte) (s : State) : Answer := transRead (readStored .modemConfig2) s

/-- RD_PREAMBLE_MSB (R93) -/
def execRdPreambleMsb (_dummy : Byte) (s : State) : Answer := transRead (readStored .preambleMsb) s

/-- RD_PREAMBLE_LSB (R94) -/
def execRdPreambleLsb (_dummy : Byte) (s : State) : Answer := transRead (readStored .preambleLsb) s

/-- RD_PAYLOAD_LENGTH (R95) -/
def execRdPayloadLength (_dummy : Byte) (s : State) : Answer := transRead (readStored .payloadLength) s

/-- RD_MODEM_CONFIG_3 (R96) -/
def execRdModemConfig3 (_dummy : Byte) (s : State) : Answer := transRead (readStored .modemConfig3) s

/-- RD_VERSION (R97) -/
def execRdVersion (_dummy : Byte) (s : State) : Answer := transRead readVersion s

end Sys2Proof.Machine
end

