-- ==== Sys2Proof/Machine/ModeMachine.lean ====
section
/-! DEFINITION. The device's mode machine: the OP_MODE write (R120, R121) with what it starts and aborts (R122, R124). -/

namespace Sys2Proof.Machine

/-- The cells of R121 a write may take. -/
def modeAllowed : Mode → Mode → Bool
  | .sleep, .standby => true
  | .standby, .standby => true
  | .standby, .transmit => true
  | .standby, .receiveContinuous => true
  | .transmit, .standby => true
  | .receiveContinuous, .standby => true
  | .receiveContinuous, .receiveContinuous => true
  | _, _ => false

/-- A mode that sends or receives; the legacy protocol is not modelled by the spec (R120, D8). -/
def modeActive : Mode → Bool
  | .transmit => true
  | .receiveContinuous => true
  | .sleep => false
  | .standby => false

/-- `n` buffer bytes from offset `b` on, wrapping; an Unknown byte is a draw (R122). -/
def captureFrame : Nat → Byte → State → List Byte × State
  | 0, _, s => ([], s)
  | n + 1, b, s =>
    match s.valueOf (s.buf b) with
    | (v, t) =>
      match captureFrame n (b + 1) t with
      | (vs, u) => (v :: vs, u)

/-- Set the frame being transmitted (R27). -/
def State.setTxJob (s : State) (j : Option (List Byte)) : State := s.setDev { s.dev with txJob := j }

/-- `TxStart()` (R122): the length is looked at first, then the base; the frame is taken now. -/
def txStart (s : State) : Acc State :=
  match s.reg .payloadLength with
  | .unknown => .fault .lengthUnknown
  | .known n =>
    match s.reg .fifoTxBaseAddr with
    | .unknown => .fault .txBaseUnknown
    | .known b =>
      match captureFrame n.toNat b s with
      | (frame, t) => .done (t.setTxJob (some frame))

/-- What an aborted transmission of `f` emits (R124): nothing, or a first part of it; a draw chooses. -/
def abortEmission (f : List Byte) : Option Nat → List Emission
  | none => []
  | some j => [.part (f.take j)]

/-- `TxAbort()` (R124): txDone is not set; with no frame pending there is nothing to abort. -/
def txAbort (s : State) : State :=
  match s.dev.txJob with
  | none => s
  | some f => ((s.setAir (s.air ++ abortEmission f (Config.freeEmission s.free))).setTxJob none).tick

/-- The three OP_MODE fields after a write (R120). -/
def State.setMode (s : State) (lr : Bool) (mid : BitVec 4) (m : Mode) : State :=
  s.setDev { s.dev with lr := lr, mid := .known mid, mode := m }

/-- What the new mode starts or ends (R120): leaving Transmit aborts, entering it starts. -/
def modeEffect (old new : Mode) (s : State) : Acc State :=
  if old = .transmit ∧ new ≠ .transmit then .done (txAbort s)
  else if old ≠ .transmit ∧ new = .transmit then txStart s
  else .done s

/-- `ModeWrite(v)` (R120), its checks in the order of R149 (2). -/
def modeWrite (v : Byte) (s : State) : Acc State :=
  match modeOfCode s.cfg.codes (modeField v) with
  | none => .refuse .reservedMode
  | some m =>
    if lrField v ≠ s.dev.lr ∧ s.dev.mode ≠ .sleep then .fault .longRangeChangeOutsideSleep
    else if modeActive m = true ∧ lrField v = false then .refuse .legacyModeUnmodelled
    else if modeAllowed s.dev.mode m = false then .fault .modeTransitionOffDiagram
    else modeEffect s.dev.mode m (s.setMode (lrField v) (midField v) m)

end Sys2Proof.Machine
end

