-- ==== Sys2Proof/Machine/BusWrites.lean ====
section
/-! DEFINITION. The nineteen write transactions (R98 to R116). -/

namespace Sys2Proof.Machine

/-- A configuration write (R100 to R103, R105, R106, R110 to R113, R115) under the guard of R78. -/
def writeConfig (r : StoreReg) (v : Byte) (s : State) : Acc State :=
  if modeActive s.dev.mode then .fault .configWhileActive else .done (s.setReg r v)

/-- `Write_FIFO(v)` (R98): the byte goes to the pointer's offset, the pointer steps by 1 modulo 256. -/
def writeFifo (v : Byte) (s : State) : Acc State :=
  match fifoAccess s with
  | .fault f => .fault f
  | .refuse r => .refuse r
  | .done p => .done ((s.setBuf p v).setReg .fifoAddrPtr (p + 1))

/-- The pointer write (R104): allowed in every mode. -/
def writePointer (v : Byte) (s : State) : Acc State := .done (s.setReg .fifoAddrPtr v)

/-- `Write_IRQ_FLAGS(v)` (R108). -/
def writeIrqFlags (v : Byte) (s : State) : Acc State := .done (s.clearFlags v)

/-- `Write_PAYLOAD_LENGTH(v)` (R114). -/
def writeLength (v : Byte) (s : State) : Acc State :=
  if s.dev.mode = .transmit then .fault .lengthDuringTransmit else .done (s.setReg .payloadLength v)

/-- A write to a read-only register (R107, R109, R116). -/
def writeReadOnly (_v : Byte) (_s : State) : Acc State := .refuse .writeToReadOnly

/-- WR_FIFO (R98) -/
def execWrFifo (v : Byte) (s : State) : Answer := transWrite writeFifo v s

/-- WR_OP_MODE (R99, R120) -/
def execWrOpMode (v : Byte) (s : State) : Answer := transWrite modeWrite v s

/-- WR_FRF_MSB (R100) -/
def execWrFrfMsb (v : Byte) (s : State) : Answer := transWrite (writeConfig .frfMsb) v s

/-- WR_FRF_MID (R101) -/
def execWrFrfMid (v : Byte) (s : State) : Answer := transWrite (writeConfig .frfMid) v s

/-- WR_FRF_LSB (R102) -/
def execWrFrfLsb (v : Byte) (s : State) : Answer := transWrite (writeConfig .frfLsb) v s

/-- WR_PA_CONFIG (R103) -/
def execWrPaConfig (v : Byte) (s : State) : Answer := transWrite (writeConfig .paConfig) v s

/-- WR_FIFO_ADDR_PTR (R104) -/
def execWrFifoAddrPtr (v : Byte) (s : State) : Answer := transWrite writePointer v s

/-- WR_FIFO_TX_BASE_ADDR (R105) -/
def execWrFifoTxBaseAddr (v : Byte) (s : State) : Answer := transWrite (writeConfig .fifoTxBaseAddr) v s

/-- WR_FIFO_RX_BASE_ADDR (R106) -/
def execWrFifoRxBaseAddr (v : Byte) (s : State) : Answer := transWrite (writeConfig .fifoRxBaseAddr) v s

/-- WR_FIFO_RX_CURRENT_ADDR (R107) -/
def execWrFifoRxCurrentAddr (v : Byte) (s : State) : Answer := transWrite writeReadOnly v s

/-- WR_IRQ_FLAGS (R108) -/
def execWrIrqFlags (v : Byte) (s : State) : Answer := transWrite writeIrqFlags v s

/-- WR_RX_NB_BYTES (R109) -/
def execWrRxNbBytes (v : Byte) (s : State) : Answer := transWrite writeReadOnly v s

/-- WR_MODEM_CONFIG_1 (R110) -/
def execWrModemConfig1 (v : Byte) (s : State) : Answer := transWrite (writeConfig .modemConfig1) v s

/-- WR_MODEM_CONFIG_2 (R111) -/
def execWrModemConfig2 (v : Byte) (s : State) : Answer := transWrite (writeConfig .modemConfig2) v s

/-- WR_PREAMBLE_MSB (R112) -/
def execWrPreambleMsb (v : Byte) (s : State) : Answer := transWrite (writeConfig .preambleMsb) v s

/-- WR_PREAMBLE_LSB (R113) -/
def execWrPreambleLsb (v : Byte) (s : State) : Answer := transWrite (writeConfig .preambleLsb) v s

/-- WR_PAYLOAD_LENGTH (R114) -/
def execWrPayloadLength (v : Byte) (s : State) : Answer := transWrite writeLength v s

/-- WR_MODEM_CONFIG_3 (R115) -/
def execWrModemConfig3 (v : Byte) (s : State) : Answer := transWrite (writeConfig .modemConfig3) v s

/-- WR_VERSION (R116) -/
def execWrVersion (v : Byte) (s : State) : Answer := transWrite writeReadOnly v s

end Sys2Proof.Machine
end

