-- ==== Sys2Proof/Machine/Codec.lean ====
section
/-! DEFINITION. The Telemetry Codec (R132 to R141): a pure function of the call; its answer is left in ctl.result (R144) and it
touches nothing else (R152). -/

namespace Sys2Proof.Machine

/-! ## The characters (R11) -/

/-- ',' -/
def chComma : Byte := 0x2C#8

/-- '-' -/
def chMinus : Byte := 0x2D#8

/-- '.' -/
def chPoint : Byte := 0x2E#8

/-- '0' -/
def chZero : Byte := 0x30#8

/-- `dig(d)`: the ASCII digit of `d` (R135). -/
def dig (d : Nat) : Byte := BitVec.ofNat 8 (0x30 + d % 10)

/-- A byte is one of '0' to '9' (R140). -/
def isDigit (c : Byte) : Bool := decide (0x30 ≤ c.toNat ∧ c.toNat ≤ 0x39)

/-- The number a digit stands for. -/
def digitVal (c : Byte) : Nat := c.toNat - 0x30

/-! ## Rendering -/

/-- Decimal digits of `x`, most significant first; `fuel` at least the number of digits. -/
def decFuel : Nat → Nat → List Byte
  | 0, _ => []
  | fuel + 1, x => if x < 10 then [dig x] else decFuel fuel (x / 10) ++ [dig x]

/-- `dec(x)`: the decimal digits of `x`, no leading zero, `dec(0) = "0"` (R135). -/
def dec (x : Nat) : List Byte := decFuel (x + 1) x

/-- `floor(|q| * 100 + 1/2)`: the hundredths of `round2(q)`, ties away from zero (R134), on the exact numerator and
denominator. -/
def hundredths (q : Rat) : Nat := (q.num.natAbs * 200 + q.den) / (2 * q.den)

/-- The rational is negative (R135). -/
def isNegative (q : Rat) : Bool := decide (q.num < 0)

/-- `round2(q)` (R134). -/
def round2 (q : Rat) : Rat :=
  mkRat (if isNegative q then -(hundredths q : Int) else (hundredths q : Int)) 100

/-- `fmt2(q)` (R135): the sign is that of the unrounded value. -/
def fmt2 (q : Rat) : List Byte :=
  (if isNegative q then [chMinus] else []) ++ dec (hundredths q / 100) ++ [chPoint] ++
    [dig (hundredths q % 100 / 10), dig (hundredths q % 10)]

/-- `fmtu(x)` (R136). -/
def fmtu (x : BitVec 32) : List Byte := dec x.toNat

/-- The frame of three finite fields and a sequence (R137 step 2). -/
def renderFrame (t h p : Rat) (seq : BitVec 32) : List Byte :=
  Config.tag ++ [chComma] ++ fmt2 t ++ [chComma] ++ fmt2 h ++ [chComma] ++ fmt2 p ++ [chComma] ++ fmtu seq

/-- `encode(rec, maxFrameLen)` (R137): non-finite fields first, then the length (R149 (4)). -/
def encodeRecord (rec : TelemetryRecord) (maxFrameLen : Nat) : Result :=
  match rec.temperature, rec.humidity, rec.pressure with
  | .finite t, .finite h, .finite p =>
    if maxFrameLen < (renderFrame t h p rec.sequence).length then .tooLong
    else .encoded (renderFrame t h p rec.sequence)
  | _, _, _ => .nonFinite

/-! ## Parsing -/

/-- The bytes up to, not including, the first 0x00 (R138). -/
def upToTerminator : List Byte → List Byte
  | [] => []
  | c :: cs => if c = 0x00#8 then [] else c :: upToTerminator cs

/-- `split(s)`: cut at every comma (R139). -/
def split : List Byte → List (List Byte)
  | [] => [[]]
  | c :: cs =>
    if c = chComma then [] :: split cs
    else
      match split cs with
      | [] => [[c]]
      | f :: fs => (c :: f) :: fs

/-- The natural a digit string denotes. -/
def natOfDigits (ds : List Byte) : Nat := ds.foldl (fun acc c => acc * 10 + digitVal c) 0

/-- A non-empty string of digits only. -/
def isDigits (ds : List Byte) : Bool := !ds.isEmpty && ds.all isDigit

/-- `digit+ ["." digit+]` as (number without the point, count of fraction digits) (R140). -/
def parseUnsigned (x : List Byte) : Option (Nat × Nat) :=
  match x.dropWhile isDigit with
  | [] => if isDigits x then some (natOfDigits x, 0) else none
  | c :: fr =>
    if c = chPoint ∧ isDigits (x.takeWhile isDigit) = true ∧ isDigits fr = true then
      some (natOfDigits (x.takeWhile isDigit ++ fr), fr.length)
    else none

/-- `parseNum(x)` (R140): the exact rational of `["-"] digit+ ["." digit+]`. -/
def parseNum (x : List Byte) : Option Rat :=
  match x with
  | [] => none
  | c :: cs =>
    if c = chMinus then (parseUnsigned cs).map (fun u => mkRat (-(u.1 : Int)) (10 ^ u.2))
    else (parseUnsigned (c :: cs)).map (fun u => mkRat (u.1 : Int) (10 ^ u.2))

/-- `parseU32(x)` (R140): `digit+` of value at most 4294967295. -/
def parseU32 (x : List Byte) : Option (BitVec 32) :=
  if isDigits x = true ∧ natOfDigits x < 2 ^ 32 then some (BitVec.ofNat 32 (natOfDigits x)) else none

/-- A parsed field, with what the policy puts in place of a failed one (R141 steps 3 and 4, D15). -/
def orPolicy {α : Type} (p : ParsePolicy) (zero : α) : Option α → Option α
  | some v => some v
  | none =>
    match p with
    | .reject => none
    | .zero => some zero

/-- The sequence field: absent with four fields, else parsed (R141 step 4). -/
def parseSequence (p : ParsePolicy) : List (List Byte) → Option (Option (BitVec 32))
  | [] => some none
  | x :: _ => (orPolicy p 0#32 (parseU32 x)).map some

/-- Steps 3 to 5 of `decode` on the fields after the tag (R141). -/
def decodeFields (p : ParsePolicy) (x1 x2 x3 : List Byte) (more : List (List Byte)) : Result :=
  match orPolicy p 0 (parseNum x1), orPolicy p 0 (parseNum x2), orPolicy p 0 (parseNum x3), parseSequence p more with
  | some v1, some v2, some v3, some seq => .decoded ⟨Config.tag, .finite v1, .finite v2, .finite v3, seq⟩
  | _, _, _, _ => .badNumber

/-- `decode` on the fields of the frame: the tag, then the field count, then the numbers (R141, R149 (4)). -/
def decodeSplit (p : ParsePolicy) : List (List Byte) → Result
  | [] => .tagMismatch
  | f0 :: fs =>
    if f0 ≠ Config.tag then .tagMismatch
    else
      match fs with
      | [x1, x2, x3] => decodeFields p x1 x2 x3 []
      | [x1, x2, x3, x4] => decodeFields p x1 x2 x3 [x4]
      | _ => .fieldCount

/-- `decode(bytes)` (R141). -/
def decodeFrame (p : ParsePolicy) (bytes : List Byte) : Result := decodeSplit p (split (upToTerminator bytes))

/-! ## The two requests -/

/-- encode (R137): taken in every lifecycle state, never held (R151, R152). -/
def execEncode (rec : TelemetryRecord) (maxFrameLen : Nat) (s : State) : Answer :=
  .next (s.setResult (some (encodeRecord rec maxFrameLen)))

/-- decode (R141): taken in every lifecycle state, never held (R151, R152). -/
def execDecode (bytes : List Byte) (s : State) : Answer :=
  .next (s.setResult (some (decodeFrame s.cfg.parseFailPolicy bytes)))

end Sys2Proof.Machine
end

