-- ==== Sys2Proof/Machine/Requests.lean ====
section
/-! DEFINITION. The five host requests that use the controller (R73): taking one starts its operation at step 1 (R31, R32), the
lifecycle guard of R151 first, then the argument checks (R149 (3)); a request offered while an operation runs is held
(R152). The operation's steps are Machine/Sequencer.lean. -/

namespace Sys2Proof.Machine

/-- The row of R151: which lifecycle states take a request. -/
def takenIn : Request → Life → Bool
  | .reset, l => decide (l = .uninit ∨ l = .ready)
  | .init, l => decide (l = .uninit)
  | .setMode _, l => decide (l = .ready)
  | .send _, l => decide (l = .ready)
  | .tryReceive _, l => decide (l = .ready)

/-- A request joins the ones held at the port (R152). -/
def State.hold (s : State) (req : Request) : State := s.setPort (s.port ++ [req])

/-- The first sub-step of step 1: init's step 1 is the five steps of reset (R118, R117). -/
def firstSub : Request → Nat
  | .init => 1
  | .reset => 0
  | .setMode _ => 0
  | .send _ => 0
  | .tryReceive _ => 0

/-- The operation starts at step 1 with blank locals (R31, R32). -/
def State.start (s : State) (req : Request) : State := s.setOp (.running req 1 (firstSub req) Locals.blank)

/-- A request at the port: held while an operation runs (R152), faulted in a lifecycle state that does not take it (R151),
refused on a bad argument, else started. -/
def offer (req : Request) (bad : Option Refusal) (s : State) : Answer :=
  match s.ctl.op with
  | .running _ _ _ _ => .next (s.hold req)
  | .idle =>
    if takenIn req s.ctl.life then
      match bad with
      | some r => refuse r s
      | none => .next (s.start req)
    else raise .requestInWrongState s

/-- `tryReceive(0)` has no room for the terminator (R129, D41). -/
def receiveCheck (maxLength : Nat) : Option Refusal := if maxLength = 0 then some .maxLengthZero else none

/-- reset (R117) -/
def execReset (s : State) : Answer := offer .reset none s

/-- init (R118); no step runs it on a configuration refused at build (R63), and it is refused here too (log 8). -/
def execInit (s : State) : Answer := offer .init (buildCheck s.cfg) s

/-- setMode (R119) -/
def execSetMode (m : Mode) (s : State) : Answer := offer (.setMode m) none s

/-- send (R128) -/
def execSend (bytes : List Byte) (s : State) : Answer := offer (.send bytes) none s

/-- tryReceive (R129) -/
def execTryReceive (maxLength : Nat) (s : State) : Answer :=
  offer (.tryReceive maxLength) (receiveCheck maxLength) s

end Sys2Proof.Machine
end

