-- ==== Sys2Proof/Machine/Dispatch.lean ====
section
/-! DEFINITION. The meaning of every instruction: one arm per constructor of Instr. -/

namespace Sys2Proof.Machine

def exec (i : Instr) (s : State) : Host.Outcome State Fault Refusal :=
  match i with
  | .rdFifo d => Sys2Proof.Machine.execRdFifo d s
  | .rdOpMode d => Sys2Proof.Machine.execRdOpMode d s
  | .rdFrfMsb d => Sys2Proof.Machine.execRdFrfMsb d s
  | .rdFrfMid d => Sys2Proof.Machine.execRdFrfMid d s
  | .rdFrfLsb d => Sys2Proof.Machine.execRdFrfLsb d s
  | .rdPaConfig d => Sys2Proof.Machine.execRdPaConfig d s
  | .rdFifoAddrPtr d => Sys2Proof.Machine.execRdFifoAddrPtr d s
  | .rdFifoTxBaseAddr d => Sys2Proof.Machine.execRdFifoTxBaseAddr d s
  | .rdFifoRxBaseAddr d => Sys2Proof.Machine.execRdFifoRxBaseAddr d s
  | .rdFifoRxCurrentAddr d => Sys2Proof.Machine.execRdFifoRxCurrentAddr d s
  | .rdIrqFlags d => Sys2Proof.Machine.execRdIrqFlags d s
  | .rdRxNbBytes d => Sys2Proof.Machine.execRdRxNbBytes d s
  | .rdModemConfig1 d => Sys2Proof.Machine.execRdModemConfig1 d s
  | .rdModemConfig2 d => Sys2Proof.Machine.execRdModemConfig2 d s
  | .rdPreambleMsb d => Sys2Proof.Machine.execRdPreambleMsb d s
  | .rdPreambleLsb d => Sys2Proof.Machine.execRdPreambleLsb d s
  | .rdPayloadLength d => Sys2Proof.Machine.execRdPayloadLength d s
  | .rdModemConfig3 d => Sys2Proof.Machine.execRdModemConfig3 d s
  | .rdVersion d => Sys2Proof.Machine.execRdVersion d s
  | .wrFifo v => Sys2Proof.Machine.execWrFifo v s
  | .wrOpMode v => Sys2Proof.Machine.execWrOpMode v s
  | .wrFrfMsb v => Sys2Proof.Machine.execWrFrfMsb v s
  | .wrFrfMid v => Sys2Proof.Machine.execWrFrfMid v s
  | .wrFrfLsb v => Sys2Proof.Machine.execWrFrfLsb v s
  | .wrPaConfig v => Sys2Proof.Machine.execWrPaConfig v s
  | .wrFifoAddrPtr v => Sys2Proof.Machine.execWrFifoAddrPtr v s
  | .wrFifoTxBaseAddr v => Sys2Proof.Machine.execWrFifoTxBaseAddr v s
  | .wrFifoRxBaseAddr v => Sys2Proof.Machine.execWrFifoRxBaseAddr v s
  | .wrFifoRxCurrentAddr v => Sys2Proof.Machine.execWrFifoRxCurrentAddr v s
  | .wrIrqFlags v => Sys2Proof.Machine.execWrIrqFlags v s
  | .wrRxNbBytes v => Sys2Proof.Machine.execWrRxNbBytes v s
  | .wrModemConfig1 v => Sys2Proof.Machine.execWrModemConfig1 v s
  | .wrModemConfig2 v => Sys2Proof.Machine.execWrModemConfig2 v s
  | .wrPreambleMsb v => Sys2Proof.Machine.execWrPreambleMsb v s
  | .wrPreambleLsb v => Sys2Proof.Machine.execWrPreambleLsb v s
  | .wrPayloadLength v => Sys2Proof.Machine.execWrPayloadLength v s
  | .wrModemConfig3 v => Sys2Proof.Machine.execWrModemConfig3 v s
  | .wrVersion v => Sys2Proof.Machine.execWrVersion v s
  | .reset => Sys2Proof.Machine.execReset s
  | .init => Sys2Proof.Machine.execInit s
  | .setMode m => Sys2Proof.Machine.execSetMode m s
  | .send bytes => Sys2Proof.Machine.execSend bytes s
  | .tryReceive n => Sys2Proof.Machine.execTryReceive n s
  | .encode r n => Sys2Proof.Machine.execEncode r n s
  | .decode bytes => Sys2Proof.Machine.execDecode bytes s

end Sys2Proof.Machine
end

