-- ==== Sys2Proof/Machine/Bus.lean ====
section
/-! DEFINITION. The Register Bus between the controller and the device: two bytes go over the link, the decoder reads them, the
instruction runs (R55, R74, R75). -/

namespace Sys2Proof.Machine

/-- What the device does with decoded bytes: the instruction, or the refusal of an unmapped address (R66); an incomplete
transaction is discarded with no effect (R59). -/
def runDecoded (d : Decoded) (s : State) : Answer :=
  match d with
  | .instr i _ => exec i s
  | .unmapped _ _ _ => transUnmapped s
  | .incomplete => .next s

/-- One transaction of two bytes. -/
def runBytes (b0 b1 : Byte) (s : State) : Answer := runDecoded (decode s.cfg.regMap [b0, b1]) s

/-- `BusRead(regAddr(r))` as the controller issues it (R74, R57). -/
def busReadReg (r : RegName) (s : State) : Answer := runBytes (byte0 false (s.cfg.regMap.addr r)) dummyByte s

/-- `BusWrite(regAddr(r), v)` as the controller issues it (R75). -/
def busWriteReg (r : RegName) (v : Byte) (s : State) : Answer := runBytes (byte0 true (s.cfg.regMap.addr r)) v s

/-- A call with an 8-bit address operand (R56, D28): bit 7 set is refused before any transaction. -/
def busByAddress (isWrite : Bool) (a : Byte) (b1 : Byte) (s : State) : Answer :=
  match addressOperand a with
  | none => refuse .addressBit7Set s
  | some a7 => runBytes (byte0 isWrite a7) b1 s

/-- The bytes the decoder left, still waiting in front of the other calls. -/
def keepRaw (rest : List Byte) (more : List BusCall) : List BusCall :=
  match rest with
  | [] => more
  | _ :: _ => .raw rest :: more

/-- The bytes after the transaction the decoder read. -/
def Decoded.rest : Decoded → List Byte
  | .instr _ rest => rest
  | .unmapped _ _ rest => rest
  | .incomplete => []

/-- One access given to the Register Bus directly (log 18); `more` are the calls behind it. -/
def serveBusCall (c : BusCall) (more : List BusCall) (s : State) : Answer :=
  match c with
  | .raw bytes =>
    runDecoded (decode s.cfg.regMap bytes) (s.setBusCalls (keepRaw (Decoded.rest (decode s.cfg.regMap bytes)) more))
  | .read a => busByAddress false a dummyByte (s.setBusCalls more)
  | .write a v => busByAddress true a v (s.setBusCalls more)

/-- Place the transaction word `w` where the next step runs it (log 18): alone at the front of the bus calls, the
controller idle and in turn, no codec call pending, and the node not stopped. -/
def placeWord (s : State) (nbits w : Nat) : State :=
  (((((s.setBusCalls (.raw (wordBytes (w % 2 ^ nbits)) :: s.busCalls)).setCalls []).setOp .idle).setTurn
    .controller).setFault none).setRefusal none

end Sys2Proof.Machine
end

