-- ==== Sys2Proof/Machine/Sequencer.lean ====
section
/-! DEFINITION. The controller: the numbered steps of the running operation (R117, R118, R119, R128, R129), one step a turn,
at most one transaction in it (R31, R32, R45), and what an idle controller takes next (R152). -/

namespace Sys2Proof.Machine

/-- The operation goes on at another step. -/
def State.goto (s : State) (req : Request) (pc sub : Nat) (loc : Locals) : State :=
  s.setOp (.running req pc sub loc)

/-- After a transaction: the operation goes on by `k`, unless the transaction stopped the node, which ends the operation
(R145). -/
def andThen (a : Answer) (k : State → State) : Answer :=
  match a with
  | .next t => if t.stopped then .next t else .next (k t)
  | .fault f => .fault f
  | .refused r => .refused r

/-- The steps of `reset` (R117): the line goes low, waits, goes high, waits, and the device is in its reset state. -/
def resetStep (n : Nat) (s : State) : Option State :=
  match n with
  | 1 => some (s.setLine .asserted)
  | 2 => some s
  | 3 => some (s.setLine .released)
  | 4 => some s
  | 5 => some ((s.setDev Dev.reset).setLife .uninit)
  | _ => none

/-- `reset` at step `pc` (R117). -/
def stepReset (pc : Nat) (loc : Locals) (s : State) : Answer :=
  match resetStep pc s with
  | none => .fault .noSuchStep
  | some t => if pc = 5 then .next (t.finish .ok) else .next (t.goto .reset (pc + 1) 0 loc)

/-- The writes of `init`, by step (R118, R42, R61, R63, R64). -/
def initWrite (p : Params) (pc : Nat) : Option (RegName × Byte) :=
  match pc with
  | 4 => some (.opMode, opModeByte p.codes .standby)
  | 5 => some (.frfMsb, frfMsbOf (frfWord p.freqHz))
  | 6 => some (.frfMid, frfMidOf (frfWord p.freqHz))
  | 7 => some (.frfLsb, frfLsbOf (frfWord p.freqHz))
  | 8 => some (.paConfig, p.paConfigByte)
  | 9 => some (.modemConfig1, p.modemConfig1Byte)
  | 10 => some (.modemConfig2, p.modemConfig2Byte)
  | 11 => some (.modemConfig3, p.modemConfig3Byte)
  | 12 => some (.preambleMsb, preambleMsbOf Config.preambleLen)
  | 13 => some (.preambleLsb, preambleLsbOf Config.preambleLen)
  | 14 => some (.fifoTxBaseAddr, Config.txBase)
  | 15 => some (.fifoRxBaseAddr, Config.rxBase)
  | _ => none

/-- `init` at step `pc` (R118); in step 1 `sub` is the step of reset. -/
def stepInit (pc sub : Nat) (loc : Locals) (s : State) : Answer :=
  match pc with
  | 1 =>
    match resetStep sub s with
    | none => .fault .noSuchStep
    | some t => if sub = 5 then .next (t.goto .init 2 0 loc) else .next (t.goto .init 1 (sub + 1) loc)
  | 2 => andThen (busReadReg .version s) (fun t => t.goto .init 3 0 { loc with id := t.bus.resp1 })
  | 3 =>
    if loc.id ≠ s.cfg.chipId then .next ((s.setLife .halted).finish .chipNotDetected)
    else .next (s.goto .init 4 0 loc)
  | 16 => .next ((s.setLife .ready).finish .success)
  | n =>
    match initWrite s.cfg n with
    | some (r, v) => andThen (busWriteReg r v s) (fun t => t.goto .init (n + 1) 0 loc)
    | none => .fault .noSuchStep

/-- `setMode` (R119): one write, then `ok`. -/
def stepSetMode (m : Mode) (pc : Nat) (s : State) : Answer :=
  match pc with
  | 1 => andThen (busWriteReg .opMode (opModeByte s.cfg.codes m) s) (fun t => t.finish .ok)
  | _ => .fault .noSuchStep

/-- `polls >= k` with `txPollBound = some(k)` (R128 step 7). -/
def pollBoundReached (bound : Option Nat) (polls : Nat) : Bool :=
  match bound with
  | none => false
  | some k => decide (k ≤ polls)

/-- The poll of `send` after its read (R128 step 7). -/
def afterPoll (bytes : List Byte) (loc : Locals) (t : State) : State :=
  if testMask t.bus.resp1 (txDoneMask t.cfg) then
    t.goto (.send bytes) 8 0 { loc with flags := t.bus.resp1, polls := loc.polls + 1 }
  else if pollBoundReached t.cfg.txPollBound (loc.polls + 1) then t.finish .timeout
  else t.goto (.send bytes) 7 0 { loc with flags := t.bus.resp1, polls := loc.polls + 1 }

/-- `send` at step `pc` (R128); in step 4 `sub` is the byte's index. -/
def stepSend (bytes : List Byte) (pc sub : Nat) (loc : Locals) (s : State) : Answer :=
  match pc with
  | 1 => if Config.maxFrame < bytes.length then .next (s.finish .tooLarge) else .next (s.goto (.send bytes) 2 0 loc)
  | 2 => andThen (busWriteReg .opMode (opModeByte s.cfg.codes .standby) s) (fun t => t.goto (.send bytes) 3 0 loc)
  | 3 => andThen (busWriteReg .fifoAddrPtr 0x00#8 s) (fun t => t.goto (.send bytes) 4 0 loc)
  | 4 =>
    match bytes[sub]? with
    | some b => andThen (busWriteReg .fifo b s) (fun t => t.goto (.send bytes) 4 (sub + 1) loc)
    | none => .next (s.goto (.send bytes) 5 0 loc)
  | 5 =>
    andThen (busWriteReg .payloadLength (BitVec.ofNat 8 bytes.length) s) (fun t => t.goto (.send bytes) 6 0 loc)
  | 6 =>
    andThen (busWriteReg .opMode (opModeByte s.cfg.codes .transmit) s)
      (fun t => t.goto (.send bytes) 7 0 { loc with polls := 0 })
  | 7 => andThen (busReadReg .irqFlags s) (afterPoll bytes loc)
  | 8 => andThen (busWriteReg .irqFlags (txDoneMask s.cfg) s) (fun t => t.finish .success)
  | _ => .fault .noSuchStep

/-- `min(n, maxLength - 1)` on exact naturals (R129 step 6). -/
def receiveCount (n : Byte) (maxLength : Nat) : Nat := min n.toNat (maxLength - 1)

/-- The result of `tryReceive`: the bytes, the terminator 0x00, and whether bytes were clipped (R129, D42). -/
def frameResult (out : List Byte) (n : Byte) (maxLength : Nat) : Result :=
  .frame (out ++ [0x00#8]) (decide (maxLength - 1 < n.toNat))

/-- `tryReceive` after its read of IRQ_FLAGS (R129 step 2). -/
def afterFlags (maxLength : Nat) (loc : Locals) (t : State) : State :=
  if testMask t.bus.resp1 (rxDoneMask t.cfg) then
    t.goto (.tryReceive maxLength) 3 0 { loc with flags := t.bus.resp1 }
  else t.finish .noFrame

/-- `tryReceive` at step `pc` (R129); in step 5 `sub` 0 is 5a and 1 is 5b, in step 6 it is the byte's index. -/
def stepTryReceive (maxLength : Nat) (pc sub : Nat) (loc : Locals) (s : State) : Answer :=
  match pc with
  | 1 =>
    andThen (busWriteReg .opMode (opModeByte s.cfg.codes .receiveContinuous) s)
      (fun t => t.goto (.tryReceive maxLength) 2 0 loc)
  | 2 => andThen (busReadReg .irqFlags s) (afterFlags maxLength loc)
  | 3 => andThen (busWriteReg .irqFlags (rxDoneMask s.cfg) s) (fun t => t.goto (.tryReceive maxLength) 4 0 loc)
  | 4 =>
    andThen (busReadReg .rxNbBytes s)
      (fun t => t.goto (.tryReceive maxLength) 5 0 { loc with n := t.bus.resp1 })
  | 5 =>
    match sub with
    | 0 =>
      andThen (busReadReg .fifoRxCurrentAddr s)
        (fun t => t.goto (.tryReceive maxLength) 5 1 { loc with addr := t.bus.resp1 })
    | 1 =>
      andThen (busWriteReg .fifoAddrPtr loc.addr s)
        (fun t => t.goto (.tryReceive maxLength) 6 0 { loc with k := receiveCount loc.n maxLength, out := [] })
    | _ => .fault .noSuchStep
  | 6 =>
    if sub < loc.k then
      andThen (busReadReg .fifo s)
        (fun t => t.goto (.tryReceive maxLength) 6 (sub + 1) { loc with out := loc.out ++ [t.bus.resp1] })
    else .next (s.finish (frameResult loc.out loc.n maxLength))
  | _ => .fault .noSuchStep

/-- One step of the running operation. -/
def stepOp (req : Request) (pc sub : Nat) (loc : Locals) (s : State) : Answer :=
  match req with
  | .reset => stepReset pc loc s
  | .init => stepInit pc sub loc s
  | .setMode m => stepSetMode m pc s
  | .send bytes => stepSend bytes pc sub loc s
  | .tryReceive n => stepTryReceive n pc sub loc s

/-- What the idle controller takes: an access given to the bus directly, else the oldest request at the port, else
nothing (R152). -/
def idleTurn (s : State) : Answer :=
  match s.busCalls with
  | c :: more => serveBusCall c more s
  | [] =>
    match s.port with
    | req :: held => exec req.toInstr (s.setPort held)
    | [] => .next s

/-- The controller's turn: a pending codec call is answered first and never held (R152); then the running operation takes
one step, or the idle controller takes something new. -/
def controllerTurn (s : State) : Answer :=
  match s.calls with
  | c :: more => exec (c.toInstr s.cfg.maxFrameLen) (s.setCalls more)
  | [] =>
    match s.ctl.op with
    | .running req pc sub loc => stepOp req pc sub loc s
    | .idle => idleTurn s

end Sys2Proof.Machine
end

