-- ==== Sys2Proof/Machine/Agents.lean ====
section
/-! DEFINITION. The agents other than the controller (R12), and one step of the node: the agent in turn moves, then the next
turn is drawn (R50, R165). -/

namespace Sys2Proof.Machine

/-- Device event TxComplete (R123); where it is not enabled nothing happens. -/
def txComplete (s : State) : State :=
  match s.dev.mode, s.dev.txJob with
  | .transmit, some f =>
    (s.setAir (s.air ++ [.full f])).setDev { s.dev with txJob := none, txDone := true, mode := .standby }
  | _, _ => s

/-- The start offset the device chooses (R125, D9). -/
def placeOf (s : State) : Byte × State :=
  match s.cfg.rxPlacement with
  | .anywhere => s.draw
  | .base => s.valueOf (s.reg .fifoRxBaseAddr)

/-- The registers a reception writes (R125). -/
def Regs.received (g : Regs) (start count : Byte) : Regs :=
  (g.set (.known start) .fifoRxCurrentAddr).set (.known count) .rxNbBytes

/-- A frame `f` lands at offset `start` (R125): bytes, start, count and rxDone; the pointer stays. -/
def deliver (f : List Byte) (start : Byte) (s : State) : State :=
  s.setDev { s.dev with
    fifo := s.dev.fifo.writeBytes start f
    regs := Regs.received s.dev.regs start (BitVec.ofNat 8 f.length)
    rxDone := true }

/-- The frame the medium offers: any bytes, at most 255 (R125). -/
def offeredFrame (s : State) : List Byte := (Config.freeFrame s.free).take Config.maxFrame

/-- RxDeliver is enabled (R125). -/
def rxEnabled (s : State) : Bool := decide (s.dev.mode = .receiveContinuous) && s.dev.lr

/-- Device event RxDeliver (R125); where it is not enabled nothing happens. -/
def rxDeliver (s : State) : State :=
  if rxEnabled s then
    match placeOf s.tick with
    | (start, t) => deliver (offeredFrame s) start t
  else s

/-- The host offers a request, held at the port until the controller is idle (R73, R152). -/
def hostRequest (s : State) : State := (s.hold (Config.freeRequest s.free)).tick

/-- The codec call the host makes, if the drawn one is a call of the spec: a frame bound it gives is 1 to 255 (R6, R137;
log 31). -/
def offeredCalls (c : CodecCall) : List CodecCall := if c.boundOk then [c] else []

/-- The host calls the codec (R73). -/
def hostCodecCall (s : State) : State := (s.setCalls (s.calls ++ offeredCalls (Config.freeCodecCall s.free))).tick

/-- The host takes the result (R33). -/
def hostTakesResult (s : State) : State := s.setResult none

/-- The move of an agent. -/
def agentMove (a : Turn) (s : State) : Answer :=
  match a with
  | .controller => controllerTurn s
  | .txComplete => .next (txComplete s)
  | .rxDeliver => .next (rxDeliver s)
  | .hostRequest => .next (hostRequest s)
  | .hostCodecCall => .next (hostCodecCall s)
  | .hostTakesResult => .next (hostTakesResult s)

/-- Draw whose turn is next (log 12). -/
def State.drawTurn (s : State) : State := (s.setTurn (Config.freeTurn s.free)).tick

/-- An answer with the next turn drawn. -/
def withNextTurn (a : Answer) : Answer :=
  match a with
  | .next t => .next t.drawTurn
  | .fault f => .fault f
  | .refused r => .refused r

/-- One step of the node: a stopped node takes none and answers its mark (R145, R146; log 10), and a node whose configuration
is refused at build takes none either, whoever is in turn (R63; log 8). -/
def nodeStep (s : State) : Answer :=
  match s.fault with
  | some f => .fault f
  | none =>
    match s.refusal with
    | some r => .refused r
    | none =>
      match buildCheck s.cfg with
      | some r => .refused r
      | none => withNextTurn (agentMove s.turn s)

end Sys2Proof.Machine
end

