-- ==== Sys2Proof/Machine/Step.lean ====
section
/-! DEFINITION. The step of the machine, and where the next transaction is placed. -/

namespace Sys2Proof.Machine

/-- One step (R12, R145, R146). -/
def step (s : State) : Host.Outcome State Fault Refusal := nodeStep s

/-- `s` with the transaction word `w` where the next step runs it (log 18). -/
def State.withFetchWord (s : State) (nbits w : Nat) : State := placeWord s nbits w

end Sys2Proof.Machine
end

