-- ==== Sys2Proof/Safety.lean ====
section
/-! DEFINITION. What counts as a good state and a good run, in the terms the claims use. -/

namespace Sys2Proof.Machine

/-- No fault and no refusal has stopped the node. -/
def State.safe (s : State) : Bool := !s.stopped

/-- A run has ended: the controller is idle, no request is held at the port, and the node is not stopped (R154). That no
codec call and no direct bus access is pending either is the model's own addition (DESIGN CHOICE, log 36): R154 does not
know the two queues. -/
def State.ended (s : State) : Bool :=
  decide (s.ctl.op = .idle) && s.port.isEmpty && s.calls.isEmpty && s.busCalls.isEmpty && s.safe

/-- `k` turns of the controller with no other agent in between. -/
def runController : Nat → State → Answer
  | 0, s => .next s
  | k + 1, s =>
    match controllerTurn s with
    | .next t => runController k t
    | .fault f => .fault f
    | .refused r => .refused r

/-- The buffer is in its canonical form. -/
def State.bufferOk (s : State) : Prop := s.dev.fifo.wf = true

/-- A frame is pending exactly in Transmit (R27, R122 to R124), and the active modes are long-range (R120). -/
def State.modeOk (s : State) : Prop :=
  (s.dev.mode = .transmit ↔ s.dev.txJob.isSome = true) ∧ (modeActive s.dev.mode = true → s.dev.lr = true)

/-- The bytes of an emission. -/
def Emission.bytes : Emission → List Byte
  | .full f => f
  | .part f => f

/-- No pending or emitted frame is longer than 255 bytes (R14). -/
def State.framesOk (s : State) : Prop :=
  (∀ f, s.dev.txJob = some f → f.length ≤ Config.maxFrame) ∧
    ∀ e ∈ s.air, (Emission.bytes e).length ≤ Config.maxFrame

/-- The running operation is at a step it has (R32), and the reset line is low only inside the pulse of reset (R29, R117). -/
def opAtStep : Op → Line → Prop
  | .idle, l => l = .released
  | .running .reset pc _ _, l => 1 ≤ pc ∧ pc ≤ 5 ∧ (l = .asserted ↔ pc = 2 ∨ pc = 3)
  | .running .init pc sub _, l =>
    1 ≤ pc ∧ pc ≤ 16 ∧ (pc = 1 → 1 ≤ sub ∧ sub ≤ 5) ∧ (l = .asserted ↔ pc = 1 ∧ (sub = 2 ∨ sub = 3))
  | .running (.setMode _) pc _ _, l => pc = 1 ∧ l = .released
  | .running (.send bytes) pc _ _, l =>
    1 ≤ pc ∧ pc ≤ 8 ∧ (2 ≤ pc → bytes.length ≤ Config.maxFrame) ∧ l = .released
  | .running (.tryReceive _) pc sub _, l => 1 ≤ pc ∧ pc ≤ 6 ∧ (pc = 5 → sub ≤ 1) ∧ l = .released

/-- The controller's position is legal and the reset line agrees with it. -/
def State.positionOk (s : State) : Prop := opAtStep s.ctl.op s.dev.resetLine

/-- The device answers on a bus without errors (R76, R77). -/
def State.busReady (s : State) : Prop := s.dev.resetLine = .released ∧ s.cfg.busReliable = true

/-- An idle, unstopped controller with a sound parameter set, before a device that answers. -/
def State.operable (s : State) : Prop :=
  s.fault = none ∧ s.refusal = none ∧ s.calls = [] ∧ s.ctl.op = .idle ∧ s.cfg.wf = true ∧ s.busReady

/-- The controller's turn makes a WR_IRQ_FLAGS transaction of `v`: step 8 of `send`, step 3 of `tryReceive`, or, for an idle
controller, a direct bus access (R62, R128, R129; log 18). -/
def State.atIrqWrite (s : State) (v : Byte) : Prop :=
  s.calls = [] ∧
    ((∃ bytes sub loc, s.ctl.op = .running (.send bytes) 8 sub loc ∧ v = txDoneMask s.cfg) ∨
      (∃ n sub loc, s.ctl.op = .running (.tryReceive n) 3 sub loc ∧ v = rxDoneMask s.cfg) ∨
      s.ctl.op = .idle ∧ ∃ more,
        (∃ bytes rest, s.busCalls = .raw bytes :: more ∧ decode s.cfg.regMap bytes = .instr (.wrIrqFlags v) rest) ∨
          s.busCalls = .write ((s.cfg.regMap.addr .irqFlags).setWidth 8) v :: more)

/-- The controller's turn is step 5 of `reset`, called by the host or by `init` (R117, R118). -/
def State.atResetEnd (s : State) : Prop :=
  s.calls = [] ∧
    ((∃ sub loc, s.ctl.op = .running .reset 5 sub loc) ∨ ∃ loc, s.ctl.op = .running .init 1 5 loc)

/-- The match words of spec/opcode_table.json, byte 1 zero, by direction and register. -/
def tableWord : Bool → RegName → Nat
  | false, .fifo => 0x0000
  | false, .opMode => 0x0100
  | false, .frfMsb => 0x0600
  | false, .frfMid => 0x0700
  | false, .frfLsb => 0x0800
  | false, .paConfig => 0x0900
  | false, .fifoAddrPtr => 0x0D00
  | false, .fifoTxBaseAddr => 0x0E00
  | false, .fifoRxBaseAddr => 0x0F00
  | false, .fifoRxCurrentAddr => 0x1000
  | false, .irqFlags => 0x1200
  | false, .rxNbBytes => 0x1300
  | false, .modemConfig1 => 0x1D00
  | false, .modemConfig2 => 0x1E00
  | false, .preambleMsb => 0x2000
  | false, .preambleLsb => 0x2100
  | false, .payloadLength => 0x2200
  | false, .modemConfig3 => 0x2600
  | false, .version => 0x4200
  | true, .fifo => 0x8000
  | true, .opMode => 0x8100
  | true, .frfMsb => 0x8600
  | true, .frfMid => 0x8700
  | true, .frfLsb => 0x8800
  | true, .paConfig => 0x8900
  | true, .fifoAddrPtr => 0x8D00
  | true, .fifoTxBaseAddr => 0x8E00
  | true, .fifoRxBaseAddr => 0x8F00
  | true, .fifoRxCurrentAddr => 0x9000
  | true, .irqFlags => 0x9200
  | true, .rxNbBytes => 0x9300
  | true, .modemConfig1 => 0x9D00
  | true, .modemConfig2 => 0x9E00
  | true, .preambleMsb => 0xA000
  | true, .preambleLsb => 0xA100
  | true, .payloadLength => 0xA200
  | true, .modemConfig3 => 0xA600
  | true, .version => 0xC200

end Sys2Proof.Machine
end

