-- ==== Sys2Proof/Certificates/Slice0/Obligations.lean ====
section
/-! DEFINITION. The statements for the provers, each a formalisation of numbered rules of spec/ (OBLIGATIONS.json lists the
rules and the quotes). `t` of `= .next t` is written out wherever the rules fix it whole: an update of `s` leaves every
other field as it was. -/

open Sys2Proof Sys2Proof.Machine

/-! ## Encoding (30_encoding.md) -/

/-- R55, R56, R57, R69, R70: the decoder reads back every encoded transaction, whatever bytes follow, for every injective
register map. -/
def Obligations.DecodeOfEncodedTransaction : Prop :=
  ∀ (m : RegMap) (i : Instr), m.wf = true → i.transaction?.isSome = true →
    ∃ b0 b1, encodeInstr m i = some (b0, b1) ∧ ∀ rest, decode m (b0 :: b1 :: rest) = .instr i rest

/-- R55, R69, R70: a decoded instruction came from its own two bytes. -/
def Obligations.EncodeOfDecodedTransaction : Prop :=
  ∀ (m : RegMap) (bytes : List Byte) (i : Instr) (rest : List Byte), decode m bytes = .instr i rest →
    ∃ b0 b1, bytes = b0 :: b1 :: rest ∧ encodeInstr m i = some (b0, b1)

/-- R55, R60 and opcode_table.json: the 38 table words with any byte 1 decode to their rows. -/
def Obligations.TableWordsDecodeToTheirRows : Prop :=
  ∀ (w : Bool) (r : RegName) (b1 : Byte),
    decodeTableWord 16 (tableWord w r + b1.toNat) = some (Instr.ofTransaction w r b1)

/-- R56: byte 0 of a write is `0x80 | a`, of a read `a`; an 8-bit address operand with bit 7 set is refused. -/
def Obligations.TransactionByteZero : Prop :=
  (∀ (m : RegMap) (r : RegName) (v : Byte),
    encodeInstr m (Instr.ofWrite v r) = some (0x80#8 ||| (m.addr r).setWidth 8, v) ∧
    encodeInstr m (Instr.ofRead v r) = some ((m.addr r).setWidth 8, v)) ∧
  ∀ (s : State) (a v : Byte) (more : List BusCall), a.getLsbD 7 = true →
    serveBusCall (.read a) more s =
      .next (((s.setBusCalls more).setRefusal (some .addressBit7Set)).setOp .idle) ∧
    serveBusCall (.write a v) more s =
      .next (((s.setBusCalls more).setRefusal (some .addressBit7Set)).setOp .idle)

/-- R66, R59: an address no register has decodes to `unmapped` and is refused (the reset line is looked at first); a
transaction of one byte has no effect; the bytes of a register's address are never unmapped; and no turn of the controller
issues such a transaction of its own, whatever the bus. Turns (log 1) and accesses given to the bus from outside the
controller (log 18) are the model's. -/
def Obligations.UnmappedAddressIsRefused : Prop :=
  (∀ (m : RegMap) (a : RegAddr) (w : Bool) (b1 : Byte) (rest : List Byte), (∀ r, m.addr r ≠ a) →
    decode m (byte0 w a :: b1 :: rest) = .unmapped w a rest) ∧
  (∀ (s : State) (a : RegAddr) (w : Bool) (b1 : Byte), (∀ r, s.cfg.regMap.addr r ≠ a) →
    (s.dev.resetLine = .released →
      runBytes (byte0 w a) b1 s = .next ((s.setRefusal (some .unmappedRegister)).setOp .idle)) ∧
    (s.dev.resetLine = .asserted →
      runBytes (byte0 w a) b1 s = .next ((s.setFault (some .txnDuringReset)).setOp .idle))) ∧
  (∀ (s : State) (b : Byte) (more : List BusCall), serveBusCall (.raw [b]) more s = .next (s.setBusCalls more)) ∧
  (∀ (m : RegMap) (r : RegName) (w w' : Bool) (b1 : Byte) (a : RegAddr) (rest rest' : List Byte),
    decode m (byte0 w (m.addr r) :: b1 :: rest) ≠ .unmapped w' a rest') ∧
  ∀ s t : State, s.ctl.op ≠ .idle ∨ s.busCalls = [] → s.refusal ≠ some .unmappedRegister →
    controllerTurn s = .next t → t.refusal ≠ some .unmappedRegister

/-- R63: the frequency word is the nearest integer of the exact quotient, a tie going up; 915 MHz gives E4 C0 00; a
configuration whose word needs more than 24 bits is refused at build, and no other is. That a node so refused carries the
mark at power-on, takes no step, and that `init` refuses it too, is how the model puts "at build" (log 8). -/
def Obligations.FrequencyWordIsNearest : Prop :=
  (∀ f : Nat, 2 * frfNumber f * Config.xtalHz ≤ 2 * (f * 2 ^ 19) + Config.xtalHz ∧
    2 * (f * 2 ^ 19) + Config.xtalHz < 2 * frfNumber f * Config.xtalHz + 2 * Config.xtalHz) ∧
  (frfMsbOf (frfWord 915000000) = 0xE4#8 ∧ frfMidOf (frfWord 915000000) = 0xC0#8 ∧
    frfLsbOf (frfWord 915000000) = 0x00#8) ∧
  (∀ p : Params, (2 ^ 24 ≤ frfNumber p.freqHz →
      (State.powerOn p).refusal = some .frequencyOutOfRange ∧ p.wf = false) ∧
    (frfNumber p.freqHz < 2 ^ 24 → State.powerOn p = { State.reset with cfg := p })) ∧
  (∀ s : State, s.fault = none → s.refusal = none →
    (2 ^ 24 ≤ frfNumber s.cfg.freqHz ↔ step s = .refused .frequencyOutOfRange)) ∧
  ∀ s : State, s.ctl.op = .idle → s.ctl.life = .uninit → 2 ^ 24 ≤ frfNumber s.cfg.freqHz →
    exec .init s = .next ((s.setRefusal (some .frequencyOutOfRange)).setOp .idle)

/-! ## Reads (40_register_bus.md) -/

/-- R81 to R84, R86, R87, R91 to R94, R96, R16: RD_FRF_MSB, RD_FRF_MID, RD_FRF_LSB, RD_PA_CONFIG, RD_FIFO_TX_BASE_ADDR,
RD_FIFO_RX_BASE_ADDR, RD_MODEM_CONFIG_1/2/3, RD_PREAMBLE_MSB, RD_PREAMBLE_LSB. -/
def Obligations.ConfigurationRegisterReads : Prop :=
  ∀ (r : StoreReg) (d : Byte) (s : State), r.isConfig = true → s.busReady →
    (∀ v, s.reg r = .known v → exec (Instr.ofRead d r.name) s = .next (s.respond v)) ∧
    (s.reg r = .unknown → exec (Instr.ofRead d r.name) s = .next (s.tick.respond (Config.freeByte s.free))) ∧
    decodeTableWord 16 (tableWord false r.name + d.toNat) = some (Instr.ofRead d r.name)

/-- R85, R88, R90, R95, R16: RD_FIFO_ADDR_PTR, RD_FIFO_RX_CURRENT_ADDR, RD_RX_NB_BYTES, RD_PAYLOAD_LENGTH. -/
def Obligations.PointerCountAndLengthReads : Prop :=
  ∀ (r : StoreReg) (d : Byte) (s : State),
    r ∈ [StoreReg.fifoAddrPtr, .fifoRxCurrentAddr, .rxNbBytes, .payloadLength] → s.busReady →
    (∀ v, s.reg r = .known v → exec (Instr.ofRead d r.name) s = .next (s.respond v)) ∧
    (s.reg r = .unknown → exec (Instr.ofRead d r.name) s = .next (s.tick.respond (Config.freeByte s.free))) ∧
    decodeTableWord 16 (tableWord false r.name + d.toNat) = some (Instr.ofRead d r.name)

/-- R79: RD_FIFO, its value, its pointer step modulo 256, and its three faults in order. -/
def Obligations.FifoReadStepsThePointer : Prop :=
  ∀ (d : Byte) (s : State), s.busReady →
    (∀ p, s.dev.mode = .standby ∨ s.dev.mode = .receiveContinuous → s.reg .fifoAddrPtr = .known p →
      (∀ v, s.buf p = .known v →
        exec (.rdFifo d) s = .next ((s.setReg .fifoAddrPtr (p + 1)).respond v)) ∧
      (s.buf p = .unknown →
        exec (.rdFifo d) s = .next ((s.tick.setReg .fifoAddrPtr (p + 1)).respond (Config.freeByte s.free)))) ∧
    (s.dev.mode = .sleep → exec (.rdFifo d) s = .next ((s.setFault (some .fifoInSleep)).setOp .idle)) ∧
    (s.dev.mode = .transmit → exec (.rdFifo d) s = .next ((s.setFault (some .fifoDuringTransmit)).setOp .idle)) ∧
    (s.dev.mode = .standby ∨ s.dev.mode = .receiveContinuous → s.reg .fifoAddrPtr = .unknown →
      exec (.rdFifo d) s = .next ((s.setFault (some .pointerUnknown)).setOp .idle)) ∧
    decodeTableWord 16 d.toNat = some (.rdFifo d)

/-- R80, R19: RD_OP_MODE gives lr at bit 7, the middle bits (a draw while Unknown) at 6:3 and the code of the mode in force
at 2:0. -/
def Obligations.OpModeReadGivesTheCurrentMode : Prop :=
  ∀ (d : Byte) (s : State), s.busReady →
    (∀ mid : BitVec 4, s.dev.mid = .known mid →
      exec (.rdOpMode d) s =
        .next (s.respond (BitVec.ofBool s.dev.lr ++ mid ++ s.cfg.codes.code s.dev.mode))) ∧
    (s.dev.mid = .unknown →
      ∃ mid : BitVec 4, exec (.rdOpMode d) s =
        .next (s.tick.respond (BitVec.ofBool s.dev.lr ++ mid ++ s.cfg.codes.code s.dev.mode))) ∧
    decodeTableWord 16 (0x0100 + d.toNat) = some (.rdOpMode d)

/-- R89, R21: RD_IRQ_FLAGS gives each done flag at its bit and draws elsewhere, and clears nothing. -/
def Obligations.IrqFlagsReadShowsTheFlags : Prop :=
  ∀ (d : Byte) (s : State), s.busReady → s.cfg.txDoneBit ≠ s.cfg.rxDoneBit →
    (∃ v : Byte, exec (.rdIrqFlags d) s = .next (s.tick.respond v) ∧
      v.getLsbD s.cfg.txDoneBit.val = s.dev.txDone ∧ v.getLsbD s.cfg.rxDoneBit.val = s.dev.rxDone ∧
      ∀ i : BitPos, i ≠ s.cfg.txDoneBit → i ≠ s.cfg.rxDoneBit →
        v.getLsbD i.val = (Config.freeByte s.free).getLsbD i.val) ∧
    decodeTableWord 16 (0x1200 + d.toNat) = some (.rdIrqFlags d)

/-- R97, R25: RD_VERSION gives `devId` in every mode. -/
def Obligations.VersionReadGivesTheIdentity : Prop :=
  ∀ (d : Byte) (s : State), s.busReady →
    exec (.rdVersion d) s = .next (s.respond s.cfg.devId) ∧
    decodeTableWord 16 (0x4200 + d.toNat) = some (.rdVersion d)

/-! ## Writes (40_register_bus.md) -/

/-- R98: WR_FIFO, its store, its pointer step modulo 256, and its three faults in order. -/
def Obligations.FifoWriteStoresAndStepsThePointer : Prop :=
  ∀ (v : Byte) (s : State), s.busReady →
    (∀ p, s.dev.mode = .standby ∨ s.dev.mode = .receiveContinuous → s.reg .fifoAddrPtr = .known p →
      exec (.wrFifo v) s = .next ((s.setBuf p v).setReg .fifoAddrPtr (p + 1)).respondDrawn ∧
      (s.setBuf p v).buf p = .known v ∧ ∀ q, q ≠ p → (s.setBuf p v).buf q = s.buf q) ∧
    (s.dev.mode = .sleep → exec (.wrFifo v) s = .next ((s.setFault (some .fifoInSleep)).setOp .idle)) ∧
    (s.dev.mode = .transmit → exec (.wrFifo v) s = .next ((s.setFault (some .fifoDuringTransmit)).setOp .idle)) ∧
    (s.dev.mode = .standby ∨ s.dev.mode = .receiveContinuous → s.reg .fifoAddrPtr = .unknown →
      exec (.wrFifo v) s = .next ((s.setFault (some .pointerUnknown)).setOp .idle)) ∧
    decodeTableWord 16 (0x8000 + v.toNat) = some (.wrFifo v)

/-- R78, R100 to R103, R105, R106, R110 to R113, R115: the eleven configuration writes store the byte in Sleep and Standby
and fault in Transmit and ReceiveContinuous. -/
def Obligations.ConfigurationWritesAndTheirGuard : Prop :=
  ∀ (r : StoreReg) (v : Byte) (s : State), r.isConfig = true → s.busReady →
    (s.dev.mode = .sleep ∨ s.dev.mode = .standby →
      exec (Instr.ofWrite v r.name) s = .next (s.setReg r v).respondDrawn ∧ (s.setReg r v).reg r = .known v ∧
        ∀ q, q ≠ r → (s.setReg r v).reg q = s.reg q) ∧
    (s.dev.mode = .transmit ∨ s.dev.mode = .receiveContinuous →
      exec (Instr.ofWrite v r.name) s = .next ((s.setFault (some .configWhileActive)).setOp .idle)) ∧
    decodeTableWord 16 (tableWord true r.name + v.toNat) = some (Instr.ofWrite v r.name)

/-- R104, R114: WR_FIFO_ADDR_PTR stores in every mode; WR_PAYLOAD_LENGTH stores outside Transmit and faults in it. -/
def Obligations.PointerAndLengthWrites : Prop :=
  ∀ (v : Byte) (s : State), s.busReady →
    exec (.wrFifoAddrPtr v) s = .next (s.setReg .fifoAddrPtr v).respondDrawn ∧
    (s.dev.mode ≠ .transmit → exec (.wrPayloadLength v) s = .next (s.setReg .payloadLength v).respondDrawn) ∧
    (s.dev.mode = .transmit →
      exec (.wrPayloadLength v) s = .next ((s.setFault (some .lengthDuringTransmit)).setOp .idle)) ∧
    decodeTableWord 16 (0x8D00 + v.toNat) = some (.wrFifoAddrPtr v) ∧
    decodeTableWord 16 (0xA200 + v.toNat) = some (.wrPayloadLength v)

/-- R108: WR_IRQ_FLAGS clears each done flag whose bit is written 1, keeps the other, and changes nothing else. -/
def Obligations.IrqFlagsWriteOneClears : Prop :=
  ∀ (v : Byte) (s : State), s.busReady →
    exec (.wrIrqFlags v) s =
      .next (s.setDev { s.dev with
        txDone := if v.getLsbD s.cfg.txDoneBit.val then false else s.dev.txDone
        rxDone := if v.getLsbD s.cfg.rxDoneBit.val then false else s.dev.rxDone }).respondDrawn ∧
    decodeTableWord 16 (0x9200 + v.toNat) = some (.wrIrqFlags v)

/-- R107, R109, R116: writes to FIFO_RX_CURRENT_ADDR, RX_NB_BYTES and VERSION are refused and change nothing else. -/
def Obligations.ReadOnlyWritesAreRefused : Prop :=
  ∀ (v : Byte) (s : State), s.busReady →
    exec (.wrFifoRxCurrentAddr v) s = .next ((s.setRefusal (some .writeToReadOnly)).setOp .idle) ∧
    exec (.wrRxNbBytes v) s = .next ((s.setRefusal (some .writeToReadOnly)).setOp .idle) ∧
    exec (.wrVersion v) s = .next ((s.setRefusal (some .writeToReadOnly)).setOp .idle) ∧
    decodeTableWord 16 (0x9000 + v.toNat) = some (.wrFifoRxCurrentAddr v) ∧
    decodeTableWord 16 (0x9300 + v.toNat) = some (.wrRxNbBytes v) ∧
    decodeTableWord 16 (0xC200 + v.toNat) = some (.wrVersion v)

/-- R76: every transaction faults while the reset line is low, before any other check; and no step from a legal position
issues one. -/
def Obligations.NoTransactionDuringReset : Prop :=
  (∀ (i : Instr) (s : State), i.transaction?.isSome = true → s.dev.resetLine = .asserted →
    exec i s = .next ((s.setFault (some .txnDuringReset)).setOp .idle)) ∧
  ∀ s t : State, s.positionOk → step s = .next t → t.fault ≠ some .txnDuringReset

/-- R77, R75: on an unreliable bus a write does to the device what the reliable one does with its byte, or with a drawn
byte, or nothing; a draw chooses (that it chooses before the register's rule is the model's choice, log 26). -/
def Obligations.UnreliableWrites : Prop :=
  ∀ (r : RegName) (v : Byte) (s : State), s.dev.resetLine = .released → s.cfg.busReliable = false →
    match Config.freeFate s.free with
    | .lost => exec (Instr.ofWrite v r) s = .next s.tick.respondDrawn
    | .asSent => ∃ t u, exec (Instr.ofWrite v r) s = .next u ∧
        exec (Instr.ofWrite v r) { s.tick with cfg := { s.cfg with busReliable := true } } = .next t ∧
        u.dev = t.dev ∧ u.air = t.air ∧ u.ctl = t.ctl ∧ u.fault = t.fault ∧ u.refusal = t.refusal
    | .altered => ∃ t u, exec (Instr.ofWrite v r) s = .next u ∧
        exec (Instr.ofWrite (Config.freeByte (s.free + 1)) r)
          { s.tick.tick with cfg := { s.cfg with busReliable := true } } = .next t ∧
        u.dev = t.dev ∧ u.air = t.air ∧ u.ctl = t.ctl ∧ u.fault = t.fault ∧ u.refusal = t.refusal

/-- R77, R74: on an unreliable bus a read acts on the device as the reliable one does, and its result is a draw. -/
def Obligations.UnreliableReads : Prop :=
  ∀ (r : RegName) (d : Byte) (s t : State), s.dev.resetLine = .released → s.cfg.busReliable = false →
    s.fault = none →
    exec (Instr.ofRead d r) { s with cfg := { s.cfg with busReliable := true } } = .next t →
    ∃ u, exec (Instr.ofRead d r) s = .next u ∧ u.dev = t.dev ∧ u.air = t.air ∧ u.ctl = t.ctl ∧
      u.fault = t.fault ∧ u.refusal = t.refusal ∧
      (t.fault = none → ∃ n, s.free ≤ n ∧ u.bus.resp1 = Config.freeByte n)

/-! ## The mode machine (41_radio_controller.md) -/

/-- R120, R121, R67, R149 (2): the refusals and faults of an OP_MODE write, in order. -/
def Obligations.OpModeWriteChecks : Prop :=
  ∀ (v : Byte) (s : State), s.busReady → s.cfg.codes.wf = true →
    ((∀ m, s.cfg.codes.code m ≠ modeField v) →
      exec (.wrOpMode v) s = .next ((s.setRefusal (some .reservedMode)).setOp .idle)) ∧
    ∀ m, s.cfg.codes.code m = modeField v →
      (v.getLsbD 7 ≠ s.dev.lr → s.dev.mode ≠ .sleep →
        exec (.wrOpMode v) s = .next ((s.setFault (some .longRangeChangeOutsideSleep)).setOp .idle)) ∧
      (v.getLsbD 7 = s.dev.lr ∨ s.dev.mode = .sleep →
        (m = .transmit ∨ m = .receiveContinuous → v.getLsbD 7 = false →
          exec (.wrOpMode v) s = .next ((s.setRefusal (some .legacyModeUnmodelled)).setOp .idle)) ∧
        (m = .sleep ∨ m = .standby ∨ v.getLsbD 7 = true →
          (s.dev.mode, m) ∈ [(Mode.sleep, Mode.sleep), (.sleep, .transmit), (.sleep, .receiveContinuous),
            (.standby, .sleep), (.transmit, .sleep), (.transmit, .transmit), (.transmit, .receiveContinuous),
            (.receiveContinuous, .sleep), (.receiveContinuous, .transmit)] →
          exec (.wrOpMode v) s = .next ((s.setFault (some .modeTransitionOffDiagram)).setOp .idle)))

/-- R120, R121, R126: an OP_MODE write to Standby from Sleep, Standby or ReceiveContinuous, and to ReceiveContinuous from
Standby or ReceiveContinuous, sets the three fields and nothing else. -/
def Obligations.OpModeWriteSetsTheFields : Prop :=
  ∀ (v : Byte) (s : State) (m : Mode), s.busReady → s.cfg.codes.wf = true → s.cfg.codes.code m = modeField v →
    (v.getLsbD 7 = s.dev.lr ∨ s.dev.mode = .sleep) → (m = .receiveContinuous → v.getLsbD 7 = true) →
    (s.dev.mode, m) ∈ [(Mode.sleep, Mode.standby), (.standby, .standby), (.receiveContinuous, .standby),
      (.standby, .receiveContinuous), (.receiveContinuous, .receiveContinuous)] →
    exec (.wrOpMode v) s =
      .next (s.setDev { s.dev with lr := v.getLsbD 7, mid := .known (midField v), mode := m }).respondDrawn

/-- R122: entering Transmit takes the PAYLOAD_LENGTH buffer bytes from FIFO_TX_BASE_ADDR on as the frame; an Unknown length
or base faults and changes nothing else. -/
def Obligations.EnteringTransmitTakesTheFrame : Prop :=
  ∀ (v : Byte) (s : State), s.busReady → s.cfg.codes.wf = true → s.cfg.codes.code .transmit = modeField v →
    s.dev.mode = .standby → s.dev.lr = true → v.getLsbD 7 = true →
    (∀ n b, s.reg .payloadLength = .known n → s.reg .fifoTxBaseAddr = .known b →
      ∃ t f, exec (.wrOpMode v) s = .next t ∧
        t.dev = { s.dev with lr := true, mid := .known (midField v), mode := .transmit, txJob := some f } ∧
        t.ctl = s.ctl ∧ t.air = s.air ∧ t.fault = s.fault ∧ t.refusal = s.refusal ∧
        f.length = n.toNat ∧
        (∀ i x, i < n.toNat → s.buf (b + BitVec.ofNat 8 i) = .known x → f[i]? = some x) ∧
        ∀ i, i < n.toNat → s.buf (b + BitVec.ofNat 8 i) = .unknown →
          ∃ k, s.free ≤ k ∧ f[i]? = some (Config.freeByte k)) ∧
    (s.reg .payloadLength = .unknown →
      exec (.wrOpMode v) s = .next ((s.setFault (some .lengthUnknown)).setOp .idle)) ∧
    (∀ n, s.reg .payloadLength = .known n → s.reg .fifoTxBaseAddr = .unknown →
      exec (.wrOpMode v) s = .next ((s.setFault (some .txBaseUnknown)).setOp .idle))

/-- R124: leaving Transmit by a write of Standby drops the pending frame; nothing or a first part of it is emitted, and
txDone is not set. -/
def Obligations.LeavingTransmitAborts : Prop :=
  ∀ (v : Byte) (s : State), s.busReady → s.cfg.codes.wf = true → s.cfg.codes.code .standby = modeField v →
    s.dev.mode = .transmit → v.getLsbD 7 = s.dev.lr →
    ∃ t, exec (.wrOpMode v) s = .next t ∧
      t.dev = { s.dev with mid := .known (midField v), mode := .standby, txJob := none } ∧
      t.ctl = s.ctl ∧ t.fault = s.fault ∧ t.refusal = s.refusal ∧
      (s.dev.txJob = none → t.air = s.air) ∧
      ∀ f, s.dev.txJob = some f →
        t.air = s.air ∨ ∃ j, j ≤ f.length ∧ t.air = s.air ++ [.part (f.take j)]

/-! ## Requests (41_radio_controller.md, 42_framer.md, 60_exceptions.md) -/

/-- R31, R32, R152: reset, init, setMode, send and tryReceive, offered to an idle controller in a state that takes them and
with a good argument, start at step 1 and change nothing else. The model's own: the blank locals, which R31 leaves undefined
(design choice, log 21), and the sub-step of init's step 1, which is 1. -/
def Obligations.RequestStartsAtStepOne : Prop :=
  ∀ (req : Request) (s : State), s.ctl.op = .idle →
    (match req with
      | .reset => s.ctl.life = .uninit ∨ s.ctl.life = .ready
      | .init => s.ctl.life = .uninit ∧ frfNumber s.cfg.freqHz < 2 ^ 24
      | .setMode _ => s.ctl.life = .ready
      | .send _ => s.ctl.life = .ready
      | .tryReceive n => s.ctl.life = .ready ∧ 1 ≤ n) →
    ∃ sub, exec req.toInstr s = .next (s.setOp (.running req 1 sub Locals.blank)) ∧ (req = .init → sub = 1)

/-- R151, R149 (3): a request in a lifecycle state that does not take it faults, before its argument is looked at; then
`tryReceive(0)` is refused. -/
def Obligations.RequestGuards : Prop :=
  ∀ (s : State), s.ctl.op = .idle →
    (s.ctl.life = .halted → exec .reset s = .next ((s.setFault (some .requestInWrongState)).setOp .idle)) ∧
    (s.ctl.life ≠ .uninit → exec .init s = .next ((s.setFault (some .requestInWrongState)).setOp .idle)) ∧
    (s.ctl.life ≠ .ready →
      (∀ m, exec (.setMode m) s = .next ((s.setFault (some .requestInWrongState)).setOp .idle)) ∧
      (∀ bs, exec (.send bs) s = .next ((s.setFault (some .requestInWrongState)).setOp .idle)) ∧
      ∀ n, exec (.tryReceive n) s = .next ((s.setFault (some .requestInWrongState)).setOp .idle)) ∧
    (s.ctl.life = .ready → exec (.tryReceive 0) s = .next ((s.setRefusal (some .maxLengthZero)).setOp .idle))

/-- R152: a request offered while an operation runs is held at the port and changes nothing else. The model's own: the
order at the port, oldest first (deduced, log 20), and that a pending codec call is answered in the controller's next turn
before anything else, its result in ctl.result and a running operation untouched (design choice, log 19). -/
def Obligations.RequestsAreHeldWhileRunning : Prop :=
  (∀ (req req' : Request) (pc sub : Nat) (loc : Locals) (s : State), s.ctl.op = .running req' pc sub loc →
    exec req.toInstr s = .next (s.setPort (s.port ++ [req]))) ∧
  ∀ (c : CodecCall) (more : List CodecCall) (s : State), s.calls = c :: more →
    ∃ r, controllerTurn s = .next ((s.setCalls more).setResult (some r))

/-- R117, R162: `reset` runs in five turns to `ok`, with the device in its reset state, life Uninit, and nothing else
changed. That each step is a turn of its own is the model's reading of R32 (log 1, log 29). -/
def Obligations.ResetCompletes : Prop :=
  ∀ s : State, s.ctl.op = .idle → s.calls = [] → s.ctl.life = .uninit ∨ s.ctl.life = .ready →
    ∃ t, exec .reset s = .next t ∧
      runController 5 t =
        .next (((s.setDev Dev.reset).setCtl { life := .uninit, op := .idle, result := some .ok }))

/-- R118: `init` on a device with the expected identity writes the configuration and ends Ready with `success`; with another
identity it ends Halted with `chipNotDetected`, the device in its reset state. The counts of turns are the model's (log 1). -/
def Obligations.InitRuns : Prop :=
  ∀ s : State, s.operable → s.ctl.life = .uninit → frfNumber s.cfg.freqHz < 2 ^ 24 →
    ∃ t u, exec .init s = .next t ∧
      (s.cfg.devId = s.cfg.chipId →
        runController 20 t = .next u ∧
          u.ctl = { life := .ready, op := .idle, result := some .success } ∧
          u.dev = { Dev.reset with
            lr := true, mid := .known 0#4, mode := .standby
            regs := { Regs.reset with
              frfMsb := .known (frfMsbOf (frfWord s.cfg.freqHz))
              frfMid := .known (frfMidOf (frfWord s.cfg.freqHz))
              frfLsb := .known (frfLsbOf (frfWord s.cfg.freqHz))
              paConfig := .known s.cfg.paConfigByte
              modemConfig1 := .known s.cfg.modemConfig1Byte
              modemConfig2 := .known s.cfg.modemConfig2Byte
              modemConfig3 := .known s.cfg.modemConfig3Byte
              preambleMsb := .known 0x00#8
              preambleLsb := .known 0x08#8
              fifoTxBaseAddr := .known 0x00#8
              fifoRxBaseAddr := .known 0x00#8 } } ∧
          u.air = s.air ∧ u.fault = none ∧ u.refusal = none) ∧
      (s.cfg.devId ≠ s.cfg.chipId →
        runController 7 t = .next u ∧
          u.ctl = { life := .halted, op := .idle, result := some .chipNotDetected } ∧
          u.dev = Dev.reset ∧ u.air = s.air ∧ u.fault = none ∧ u.refusal = none)

/-- R119: `setMode(m)` is one OP_MODE write of `opModeByte(m)`, then `ok`; setMode(Sleep) in an idle Ready block faults. The
count of one turn is the model's (log 1). -/
def Obligations.SetModeIsOneWrite : Prop :=
  ∀ (s : State) (m : Mode), s.operable → s.ctl.life = .ready → s.dev.lr = true →
    ∃ t, exec (.setMode m) s = .next t ∧
      (∀ u, exec (.wrOpMode (opModeByte s.cfg.codes m)) t = .next u → u.stopped = false →
        runController 1 t = .next (u.finish .ok)) ∧
      (m = .standby ∨ m = .receiveContinuous → s.dev.mode = .standby ∨ s.dev.mode = .receiveContinuous →
        ∃ u, runController 1 t = .next u ∧ u.dev = { s.dev with mid := .known 0#4, mode := m } ∧
          u.ctl = { s.ctl with result := some .ok }) ∧
      (m = .sleep → runController 1 t = .next ((t.setFault (some .modeTransitionOffDiagram)).setOp .idle))

/-- R128 step 1: more than 255 bytes give `tooLarge` with no transaction; 255 are accepted. The model's own: the one turn
(log 1) and the blank locals at step 2, which R31 leaves undefined (design choice, log 21). -/
def Obligations.SendTooLargeTouchesNothing : Prop :=
  ∀ (s : State) (bytes : List Byte), s.ctl.op = .idle → s.calls = [] → s.ctl.life = .ready →
    ∃ t, exec (.send bytes) s = .next t ∧
      (255 < bytes.length → runController 1 t = .next (s.setResult (some .tooLarge))) ∧
      (bytes.length ≤ 255 → runController 1 t = .next (s.setOp (.running (.send bytes) 2 0 Locals.blank)))

/-- R128, R123: `send` of at most 255 bytes reaches its poll with exactly the payload pending, from Standby,
ReceiveContinuous or Transmit; with TxComplete before the first poll it then ends in `success` with the frame emitted,
Standby, and txDone clear. The counts of turns are the model's (log 1, log 23). -/
def Obligations.SendTransmitsThePayload : Prop :=
  ∀ (s : State) (bytes : List Byte), s.operable → s.ctl.life = .ready → s.dev.lr = true → s.dev.mode ≠ .sleep →
    s.reg .fifoTxBaseAddr = .known 0x00#8 → bytes.length ≤ 255 →
    ∃ t0 t1 u, exec (.send bytes) s = .next t0 ∧ runController (bytes.length + 6) t0 = .next t1 ∧
      t1.dev.mode = .transmit ∧ t1.dev.txJob = some bytes ∧
      t1.reg .payloadLength = .known (BitVec.ofNat 8 bytes.length) ∧
      t1.reg .fifoAddrPtr = .known (BitVec.ofNat 8 bytes.length) ∧
      (s.dev.mode ≠ .transmit → t1.air = s.air) ∧
      runController 2 (txComplete t1) = .next u ∧
      u.ctl = { life := .ready, op := .idle, result := some .success } ∧
      u.air = t1.air ++ [.full bytes] ∧ u.dev.mode = .standby ∧ u.dev.txJob = none ∧ u.dev.txDone = false ∧
      u.dev.rxDone = s.dev.rxDone ∧ u.fault = none ∧ u.refusal = none

/-- R128 step 7, R147: with no completion and `txPollBound = some(k)`, `send` ends in `timeout` after `k` polls, still in
Transmit with the frame pending; with no bound it polls for ever, with no result of its own. The counts of turns are the
model's (log 1, log 23). -/
def Obligations.SendTimesOutOrPollsForEver : Prop :=
  ∀ (s : State) (bytes : List Byte), s.operable → s.ctl.life = .ready → s.dev.lr = true → s.dev.mode ≠ .sleep →
    s.reg .fifoTxBaseAddr = .known 0x00#8 → bytes.length ≤ 255 → s.dev.txDone = false →
    ∃ t, exec (.send bytes) s = .next t ∧
      (∀ k, s.cfg.txPollBound = some k →
        ∃ u, runController (bytes.length + 6 + k) t = .next u ∧
          u.ctl = { life := .ready, op := .idle, result := some .timeout } ∧
          u.dev.mode = .transmit ∧ u.dev.txJob = some bytes ∧ u.dev.txDone = false) ∧
      (s.cfg.txPollBound = none → ∀ k,
        ∃ u loc, runController (bytes.length + 6 + k) t = .next u ∧
          u.ctl = { s.ctl with op := .running (.send bytes) 7 0 loc } ∧ loc.polls = k ∧
          u.dev.mode = .transmit ∧ u.dev.txJob = some bytes)

/-- R129 steps 1 and 2: with rxDone = 0 `tryReceive` puts the device in ReceiveContinuous and returns `none` after one write,
that of OP_MODE, and one read, that of IRQ_FLAGS. That each is one turn is the model's (log 1). -/
def Obligations.TryReceiveWithoutAFrame : Prop :=
  ∀ (s : State) (n : Nat), s.operable → s.ctl.life = .ready → s.dev.lr = true →
    s.dev.mode = .standby ∨ s.dev.mode = .receiveContinuous → 1 ≤ n → s.dev.rxDone = false →
    ∃ t v loc w u, exec (.tryReceive n) s = .next t ∧
      exec (.wrOpMode (opModeByte s.cfg.codes .receiveContinuous)) t = .next v ∧
      runController 1 t = .next (v.setOp (.running (.tryReceive n) 2 0 loc)) ∧
      exec (.rdIrqFlags 0x00#8) (v.setOp (.running (.tryReceive n) 2 0 loc)) = .next w ∧
      runController 2 t = .next u ∧ u = w.finish .noFrame ∧
      u.ctl = { life := .ready, op := .idle, result := some .noFrame } ∧
      u.dev = { s.dev with mid := .known 0#4, mode := .receiveContinuous } ∧ u.air = s.air

/-- R129, R131 (c): with rxDone = 1 and a frame `f` in the buffer from the reported start on, `tryReceive` returns the first
`min(length f, maxLength - 1)` bytes and the terminator, says whether bytes were clipped, clears rxDone, and leaves the
pointer behind the bytes read. The count of turns is the model's (log 1, log 23). -/
def Obligations.TryReceiveReturnsTheFrame : Prop :=
  ∀ (s : State) (maxLength : Nat) (f : List Byte) (start : Byte), s.operable → s.ctl.life = .ready →
    s.dev.lr = true → s.dev.mode = .standby ∨ s.dev.mode = .receiveContinuous → 1 ≤ maxLength →
    s.dev.rxDone = true → f.length ≤ 255 → s.reg .rxNbBytes = .known (BitVec.ofNat 8 f.length) →
    s.reg .fifoRxCurrentAddr = .known start →
    (∀ i x, f[i]? = some x → s.buf (start + BitVec.ofNat 8 i) = .known x) →
    ∃ t u, exec (.tryReceive maxLength) s = .next t ∧
      runController (min f.length (maxLength - 1) + 7) t = .next u ∧
      u.ctl = { life := .ready, op := .idle
                result := some (.frame (f.take (maxLength - 1) ++ [0x00#8]) (decide (maxLength - 1 < f.length))) } ∧
      u.dev = { s.dev with
        mid := .known 0#4, mode := .receiveContinuous, rxDone := false
        regs := s.dev.regs.set (.known (start + BitVec.ofNat 8 (min f.length (maxLength - 1)))) .fifoAddrPtr } ∧
      u.air = s.air ∧ u.fault = none ∧ u.refusal = none

/-! ## The codec (43_telemetry_codec.md) -/

/-- R137, R144: encode completes in every state and leaves only its result: `nonFinite`, then `tooLong`, else the frame.
The model's own: that a running operation stays, where R144 ends an operation with op Idle (design choice, log 19), and the
same rule for bounds outside 1 to 255 (design choice, log 31). -/
def Obligations.EncodeAnswers : Prop :=
  ∀ (rec : TelemetryRecord) (maxLen : Nat) (s : State),
    ∃ r, exec (.encode rec maxLen) s = .next (s.setResult (some r)) ∧
      (rec.temperature = .nonFinite ∨ rec.humidity = .nonFinite ∨ rec.pressure = .nonFinite → r = .nonFinite) ∧
      ∀ t h p, rec.temperature = .finite t → rec.humidity = .finite h → rec.pressure = .finite p →
        ∃ f, f = [0x54#8, 0x53#8, 0x2C#8] ++ fmt2 t ++ [0x2C#8] ++ fmt2 h ++ [0x2C#8] ++ fmt2 p ++ [0x2C#8] ++
            fmtu rec.sequence ∧
          (f.length ≤ maxLen → r = .encoded f) ∧ (maxLen < f.length → r = .tooLong)

/-- R134: rounding to hundredths, half away from zero, on exact rationals. -/
def Obligations.RoundHalfAwayFromZero : Prop :=
  ∀ q : ℚ, round2 q = (if q < 0 then -1 else 1) * (⌊|q| * 100 + 1 / 2⌋ : ℚ) / 100

/-- R135, R136: the shape of a rendered number: sign exactly when the value is negative, an integer part with no leading
zero, a point and two digits that together denote the rounded value; and of a rendered sequence. -/
def Obligations.NumbersRenderInDecimal : Prop :=
  (∀ q : ℚ, ∃ ip d1 d2, fmt2 q = (if q < 0 then [0x2D#8] else []) ++ ip ++ [0x2E#8, d1, d2] ∧
    ip ≠ [] ∧ ip.all isDigit = true ∧ (ip.head? = some 0x30#8 → ip = [0x30#8]) ∧
    isDigit d1 = true ∧ isDigit d2 = true ∧
    (natOfDigits (ip ++ [d1, d2]) : ℚ) = |round2 q| * 100) ∧
  ∀ x : BitVec 32, (fmtu x).all isDigit = true ∧ ((fmtu x).head? = some 0x30#8 → fmtu x = [0x30#8]) ∧
    natOfDigits (fmtu x) = x.toNat ∧ 1 ≤ (fmtu x).length ∧ (fmtu x).length ≤ 10

/-- R142: decoding an encoded record gives back the rounded fields and the sequence, exactly, under either policy, each
field within 1/200 of the original. -/
def Obligations.DecodeOfEncodedRecord : Prop :=
  ∀ (tag : List Byte) (t h p : ℚ) (seq : BitVec 32) (maxLen : Nat) (f : List Byte) (pol : ParsePolicy),
    encodeRecord ⟨tag, .finite t, .finite h, .finite p, seq⟩ maxLen = .encoded f →
    decodeFrame pol f =
      .decoded ⟨[0x54#8, 0x53#8], .finite (round2 t), .finite (round2 h), .finite (round2 p), some seq⟩ ∧
    |round2 t - t| ≤ 1 / 200 ∧ |round2 h - h| ≤ 1 / 200 ∧ |round2 p - p| ≤ 1 / 200

/-- R143: an encoded frame fits the bound, has exactly four commas and only the listed characters; a frame whose first field
is not TS is a tag mismatch. -/
def Obligations.EncodedFramesAreWellFormed : Prop :=
  (∀ (rec : TelemetryRecord) (maxLen : Nat) (f : List Byte), encodeRecord rec maxLen = .encoded f →
    f.length ≤ maxLen ∧ (maxLen ≤ 255 → f.length ≤ 255) ∧ f.count 0x2C#8 = 4 ∧ (0x00#8 : Byte) ∉ f ∧
    ∀ c ∈ f, c ∈ [0x54#8, 0x53#8, 0x2C#8, 0x2D#8, 0x2E#8] ∨ isDigit c = true) ∧
  ∀ (pol : ParsePolicy) (bytes f0 : List Byte) (fs : List (List Byte)),
    split (upToTerminator bytes) = f0 :: fs → f0 ≠ [0x54#8, 0x53#8] → decodeFrame pol bytes = .tagMismatch

/-- R141: decode completes in every state and leaves only its result: the tag, then the field count, then the numbers, all or
nothing; a number that fails is rejected, or 0 under the other policy. That a running operation stays, where R144 ends an
operation with op Idle, is the model's own (design choice, log 19). -/
def Obligations.DecodeAnswers : Prop :=
  ∀ (bytes : List Byte) (s : State), ∃ r f0 fs, exec (.decode bytes) s = .next (s.setResult (some r)) ∧
    split (upToTerminator bytes) = f0 :: fs ∧
    (f0 ≠ [0x54#8, 0x53#8] → r = .tagMismatch) ∧
    (f0 = [0x54#8, 0x53#8] → fs.length ≠ 3 → fs.length ≠ 4 → r = .fieldCount) ∧
    ∀ x1 x2 x3 more, f0 = [0x54#8, 0x53#8] → fs = x1 :: x2 :: x3 :: more → more.length ≤ 1 →
      (s.cfg.parseFailPolicy = .reject →
        (parseNum x1 = none ∨ parseNum x2 = none ∨ parseNum x3 = none ∨ (∃ x ∈ more, parseU32 x = none) →
          r = .badNumber) ∧
        ∀ v1 v2 v3, parseNum x1 = some v1 → parseNum x2 = some v2 → parseNum x3 = some v3 →
          (∀ x ∈ more, parseU32 x ≠ none) →
          r = .decoded ⟨[0x54#8, 0x53#8], .finite v1, .finite v2, .finite v3, more.head?.bind parseU32⟩) ∧
      (s.cfg.parseFailPolicy = .zero →
        r = .decoded ⟨[0x54#8, 0x53#8], .finite ((parseNum x1).getD 0), .finite ((parseNum x2).getD 0),
          .finite ((parseNum x3).getD 0), more.head?.map (fun x => (parseU32 x).getD 0#32)⟩)

/-- R140: the accepted number strings and the rationals they denote, the accepted sequence strings, and every rendered
number and sequence is accepted. -/
def Obligations.ParsedNumbersAreTheGrammar : Prop :=
  (∀ (x : List Byte) (q : ℚ), parseNum x = some q ↔
    ∃ (neg : Bool) (ds fr : List Byte), isDigits ds = true ∧ (fr = [] ∨ isDigits fr = true) ∧
      x = (if neg then [0x2D#8] else []) ++ ds ++ (if fr = [] then [] else 0x2E#8 :: fr) ∧
      q = (if neg then -1 else 1) * ((natOfDigits ds : ℚ) + (natOfDigits fr : ℚ) / 10 ^ fr.length)) ∧
  (∀ (x : List Byte) (n : BitVec 32), parseU32 x = some n ↔
    isDigits x = true ∧ natOfDigits x < 2 ^ 32 ∧ n = BitVec.ofNat 32 (natOfDigits x)) ∧
  (∀ q : ℚ, parseNum (fmt2 q) = some (round2 q)) ∧ ∀ n : BitVec 32, parseU32 (fmtu n) = some n

/-- R138, R139: decode reads up to the first 0x00; split cuts at every comma into one field more than there are commas, none
holding a comma, and the fields joined by commas are the string. -/
def Obligations.FieldsAreCutAtCommas : Prop :=
  (∀ s : List Byte, (split s).length = s.count 0x2C#8 + 1 ∧ (∀ f ∈ split s, (0x2C#8 : Byte) ∉ f) ∧
    [(0x2C#8 : Byte)].intercalate (split s) = s) ∧
  ∀ s rest : List Byte, (0x00#8 : Byte) ∉ s → upToTerminator (s ++ 0x00#8 :: rest) = s ∧ upToTerminator s = s

/-! ## Device events (41_radio_controller.md) -/

/-- R123: TxComplete, in one step (whose turn it is, is the model's field, log 12); where it is not enabled only the next
turn is drawn. -/
def Obligations.TxCompleteEvent : Prop :=
  ∀ s : State, s.fault = none → s.refusal = none → frfNumber s.cfg.freqHz < 2 ^ 24 → s.turn = .txComplete →
    (∀ f, s.dev.mode = .transmit → s.dev.txJob = some f →
      step s = .next ((s.setAir (s.air ++ [.full f])).setDev
        { s.dev with txJob := none, txDone := true, mode := .standby }).drawTurn) ∧
    (s.dev.mode ≠ .transmit ∨ s.dev.txJob = none → step s = .next s.drawTurn)

/-- R125: RxDeliver, in one step (whose turn it is, is the model's field, log 12; the draws are log 24's): some frame of at
most 255 bytes lands at some start; start, count and rxDone are set; the pointer and everything else but the draw counter
and the next turn stay; where it is not enabled only the next turn is drawn. -/
def Obligations.RxDeliverEvent : Prop :=
  ∀ s : State, s.fault = none → s.refusal = none → frfNumber s.cfg.freqHz < 2 ^ 24 → s.turn = .rxDeliver →
    (s.dev.mode = .receiveContinuous → s.dev.lr = true →
      ∃ (t : State) (f : List Byte) (start : Byte), step s = .next t ∧ f.length ≤ 255 ∧
        (∀ i x, f[i]? = some x → t.buf (start + BitVec.ofNat 8 i) = .known x) ∧
        (∀ p : Byte, (∀ i, i < f.length → p ≠ start + BitVec.ofNat 8 i) → t.buf p = s.buf p) ∧
        t.dev = { s.dev with
          fifo := t.dev.fifo, rxDone := true
          regs := (s.dev.regs.set (.known start) .fifoRxCurrentAddr).set
            (.known (BitVec.ofNat 8 f.length)) .rxNbBytes } ∧
        (s.cfg.rxPlacement = .base → ∀ b, s.reg .fifoRxBaseAddr = .known b → start = b) ∧
        t.cfg = s.cfg ∧ t.ctl = s.ctl ∧ t.air = s.air ∧ t.bus = s.bus ∧ t.port = s.port ∧ t.calls = s.calls ∧
        t.busCalls = s.busCalls ∧ t.fault = none ∧ t.refusal = none) ∧
    (s.dev.mode ≠ .receiveContinuous ∨ s.dev.lr = false → step s = .next s.drawTurn)

/-! ## The step -/

/-- R55, R74, R75, R152: when the bytes given to the bus decode to an instruction, the step of an idle controller in turn is
that instruction's exec, on the state without those bytes, then the draw of the next turn; so is the step that takes a
request from the port or a codec call, the parameter `maxFrameLen` being the frame bound of an encode that gives none (R137;
log 31). The bus calls and the turns are the model's (log 12, log 18, log 19). -/
def Obligations.StepRunsTheDecodedInstruction : Prop :=
  ∀ s : State, s.fault = none → s.refusal = none → frfNumber s.cfg.freqHz < 2 ^ 24 → s.turn = .controller →
    (∀ bytes i rest more, s.calls = [] → s.ctl.op = .idle → s.busCalls = .raw bytes :: more →
      decode s.cfg.regMap bytes = .instr i rest →
      step s = withNextTurn (exec i (s.setBusCalls (keepRaw rest more)))) ∧
    (∀ req held, s.calls = [] → s.ctl.op = .idle → s.busCalls = [] → s.port = req :: held →
      step s = withNextTurn (exec req.toInstr (s.setPort held))) ∧
    ∀ c more, s.calls = c :: more → step s = withNextTurn (exec (c.toInstr s.cfg.maxFrameLen) (s.setCalls more))

/-- R74, R75: what a running operation sends to a register's address is run as that register's instruction. -/
def Obligations.ControllerAccessesRunTheInstruction : Prop :=
  ∀ (r : RegName) (v : Byte) (s : State), s.cfg.regMap.wf = true →
    busReadReg r s = exec (Instr.ofRead 0x00#8 r) s ∧ busWriteReg r v s = exec (Instr.ofWrite v r) s

/-- R145, R146: a node stopped by a fault or a refusal takes no further step. The model's own (design choice, log 10): not only
the controller but the whole node stops, and a fault is answered before a refusal. -/
def Obligations.StoppedNodeTakesNoStep : Prop :=
  ∀ s : State, (∀ f, s.fault = some f → step s = .fault f) ∧
    ∀ r, s.fault = none → s.refusal = some r → step s = .refused r

/-! ## Frames -/

/-- R46, R79 to R97: what the nineteen reads leave unchanged: everything but the response bytes and the draws, the pointer
for RD_FIFO, and the mark and operation where one faults. -/
def Obligations.ReadTransactionsFrame : Prop :=
  ∀ (r : RegName) (d : Byte) (s t : State), exec (Instr.ofRead d r) s = .next t →
    t.dev.lr = s.dev.lr ∧ t.dev.mid = s.dev.mid ∧ t.dev.mode = s.dev.mode ∧ t.dev.txDone = s.dev.txDone ∧
    t.dev.rxDone = s.dev.rxDone ∧ t.dev.txJob = s.dev.txJob ∧ t.dev.resetLine = s.dev.resetLine ∧
    (∀ a, t.dev.fifo.read a = s.dev.fifo.read a) ∧
    (∀ q, ¬(r = .fifo ∧ q = .fifoAddrPtr) → t.reg q = s.reg q) ∧
    t.ctl.life = s.ctl.life ∧ t.ctl.result = s.ctl.result ∧ t.air = s.air ∧ t.refusal = s.refusal ∧
    t.cfg = s.cfg ∧ t.port = s.port ∧ t.calls = s.calls ∧ t.busCalls = s.busCalls ∧ t.turn = s.turn ∧
    (t.fault = none → t.ctl.op = s.ctl.op)

/-- R46, R98 to R116: what the nineteen writes leave unchanged: every register but the one written (and the pointer for
WR_FIFO), the flags but for WR_IRQ_FLAGS, the mode and what hangs on it but for WR_OP_MODE, and every buffer byte but the one
at the pointer for WR_FIFO. -/
def Obligations.WriteTransactionsFrame : Prop :=
  ∀ (r : RegName) (v : Byte) (s t : State), exec (Instr.ofWrite v r) s = .next t →
    (∀ q : StoreReg, q.name ≠ r → ¬(r = .fifo ∧ q = .fifoAddrPtr) → t.reg q = s.reg q) ∧
    (r ≠ .irqFlags → t.dev.txDone = s.dev.txDone ∧ t.dev.rxDone = s.dev.rxDone) ∧
    (r ≠ .opMode → t.dev.lr = s.dev.lr ∧ t.dev.mid = s.dev.mid ∧ t.dev.mode = s.dev.mode ∧
      t.dev.txJob = s.dev.txJob ∧ t.air = s.air) ∧
    (∀ a, (∀ p, r = .fifo → s.reg .fifoAddrPtr = .known p → a ≠ p.toNat) →
      t.dev.fifo.read a = s.dev.fifo.read a) ∧
    t.dev.resetLine = s.dev.resetLine ∧ t.ctl.life = s.ctl.life ∧ t.ctl.result = s.ctl.result ∧
    t.cfg = s.cfg ∧ t.port = s.port ∧ t.calls = s.calls ∧ t.busCalls = s.busCalls ∧ t.turn = s.turn ∧
    (t.fault = none → t.refusal = none → t.ctl.op = s.ctl.op)

/-- R73, R152: what the seven host requests leave unchanged when they are taken, held, faulted or refused: the device with
every register, flag and buffer byte, the emissions, the response bytes; the five controller requests also the lifecycle and
the result. That the codec calls leave all but the result, a running operation too, where R144 ends an operation with op
Idle, is the model's own (design choice, log 19). -/
def Obligations.HostRequestsFrame : Prop :=
  (∀ (req : Request) (s t : State), exec req.toInstr s = .next t →
    t.dev = s.dev ∧ (∀ a, t.dev.fifo.read a = s.dev.fifo.read a) ∧ t.air = s.air ∧ t.bus = s.bus ∧
    t.ctl.life = s.ctl.life ∧ t.ctl.result = s.ctl.result ∧ t.cfg = s.cfg ∧ t.calls = s.calls ∧
    t.busCalls = s.busCalls ∧ t.turn = s.turn ∧ t.free = s.free ∧
    (s.ctl.op = .idle → t.port = s.port) ∧
    (s.ctl.op ≠ .idle → t.ctl = s.ctl ∧ t.fault = s.fault ∧ t.refusal = s.refusal)) ∧
  ∀ (c : CodecCall) (maxFrameLen : Nat) (s t : State), exec (c.toInstr maxFrameLen) s = .next t →
    ∃ r, t = s.setResult (some r) ∧ ∀ a, t.dev.fifo.read a = s.dev.fifo.read a

/-! ## Rules of the whole machine -/

/-- R35, R21, R50 (b), R117, R148: no instruction but WR_IRQ_FLAGS changes a done flag, and WR_IRQ_FLAGS sets none; over
the whole machine only TxComplete sets txDone and only RxDeliver sets rxDone, and a flag is cleared only in a controller's
turn that ends the reset pulse or makes a WR_IRQ_FLAGS transaction, which is then all it does to the device. Turns (log 12)
and direct bus accesses (log 18) are the model's. -/
def Obligations.OnlyEventsSetDoneFlags : Prop :=
  (∀ (i : Instr) (s t : State), exec i s = .next t →
    ((∀ v, i ≠ .wrIrqFlags v) → t.dev.txDone = s.dev.txDone ∧ t.dev.rxDone = s.dev.rxDone) ∧
    (t.dev.txDone = true → s.dev.txDone = true) ∧ (t.dev.rxDone = true → s.dev.rxDone = true)) ∧
  ∀ s t : State, step s = .next t →
    (t.dev.txDone = true → s.dev.txDone = true ∨ s.turn = .txComplete) ∧
    (t.dev.rxDone = true → s.dev.rxDone = true ∨ s.turn = .rxDeliver) ∧
    (s.cfg.regMap.wf = true →
      (s.dev.txDone = true ∧ t.dev.txDone = false) ∨ (s.dev.rxDone = true ∧ t.dev.rxDone = false) →
      s.turn = .controller ∧
        (s.atResetEnd ∨ ∃ v u, s.atIrqWrite v ∧ exec (.wrIrqFlags v) s = .next u ∧ t.dev = u.dev))

/-- R131 (d), with R127: a turn of a running `send`, `tryReceive` or `setMode` writes no configuration register. -/
def Obligations.FramerWritesNoConfiguration : Prop :=
  ∀ (s t : State) (req : Request) (pc sub : Nat) (loc : Locals), s.cfg.regMap.wf = true →
    s.ctl.op = .running req pc sub loc → req ≠ .reset → req ≠ .init → controllerTurn s = .next t →
    ∀ q : StoreReg, q.isConfig = true → t.reg q = s.reg q

/-- R146: no turn of a running operation refuses, on a reliable bus. -/
def Obligations.RunningOperationsNeverRefuse : Prop :=
  ∀ (s t : State) (req : Request) (pc sub : Nat) (loc : Locals), s.cfg.regMap.wf = true →
    s.cfg.busReliable = true → s.ctl.op = .running req pc sub loc → controllerTurn s = .next t →
    t.refusal = s.refusal

/-- R36: no step writes a parameter. -/
def Obligations.StepKeepsTheParameters : Prop :=
  ∀ s t : State, step s = .next t → t.cfg = s.cfg

/-- R26, R39: every step keeps the buffer's canonical form, offsets strictly rising below 256. -/
def Obligations.StepKeepsTheBufferCanonical : Prop :=
  ∀ s t : State, s.bufferOk → step s = .next t → t.bufferOk

/-- R20, R27, R120, R122 to R124: every step keeps: a frame is pending exactly in Transmit, and Transmit and
ReceiveContinuous are long-range. -/
def Obligations.StepKeepsTheModeAndThePendingFrame : Prop :=
  ∀ s t : State, s.modeOk → step s = .next t → t.modeOk

/-- R14, R24, R34, R125: every step keeps: no pending or emitted frame is longer than 255 bytes. -/
def Obligations.StepKeepsFramesShort : Prop :=
  ∀ s t : State, s.framesOk → step s = .next t → t.framesOk

/-- R29, R32, R117: every step keeps the controller at a step its operation has, with the reset line low only inside the
pulse; from such a state no step answers that the step does not exist. -/
def Obligations.StepKeepsTheControllerPosition : Prop :=
  (∀ s t : State, s.positionOk → step s = .next t → t.positionOk) ∧
  ∀ s : State, s.positionOk → s.fault = none → step s ≠ .fault .noSuchStep

/-- R161, R37: power-on: the device in its reset state, VERSION reading `devId`, the controller Uninit and idle, no emission,
no fault, no refusal; and the model's invariants hold there. -/
def Obligations.PowerOnState : Prop :=
  (State.reset.dev.mode = .sleep ∧ State.reset.dev.lr = false ∧ State.reset.dev.mid = .unknown ∧
    State.reset.dev.txDone = false ∧ State.reset.dev.rxDone = false ∧ (∀ r, State.reset.reg r = .unknown) ∧
    (∀ p, State.reset.buf p = .unknown) ∧ State.reset.dev.txJob = none ∧
    State.reset.dev.resetLine = .released ∧ State.reset.ctl = ⟨.uninit, .idle, none⟩ ∧ State.reset.air = [] ∧
    State.reset.fault = none ∧ State.reset.refused = false ∧
    ∀ d, exec (.rdVersion d) State.reset = .next (State.reset.respond State.reset.cfg.devId)) ∧
  State.reset.bufferOk ∧ State.reset.modeOk ∧ State.reset.framesOk ∧ State.reset.positionOk ∧
    State.reset.cfg.wf = true
end

