-- ==== Sys2Proof/Laws/State.lean ====
section
/-! SUPPORT. One lemma per field per update of State, each true by unfolding, so that no proof unfolds an update. -/

namespace Sys2Proof.Machine

@[simp] theorem State.setDev_cfg (s : State) (d : Dev) : (s.setDev d).cfg = s.cfg := rfl
@[simp] theorem State.setDev_dev (s : State) (d : Dev) : (s.setDev d).dev = d := rfl
@[simp] theorem State.setDev_ctl (s : State) (d : Dev) : (s.setDev d).ctl = s.ctl := rfl
@[simp] theorem State.setDev_air (s : State) (d : Dev) : (s.setDev d).air = s.air := rfl
@[simp] theorem State.setDev_fault (s : State) (d : Dev) : (s.setDev d).fault = s.fault := rfl
@[simp] theorem State.setDev_refusal (s : State) (d : Dev) : (s.setDev d).refusal = s.refusal := rfl
@[simp] theorem State.setDev_bus (s : State) (d : Dev) : (s.setDev d).bus = s.bus := rfl
@[simp] theorem State.setDev_port (s : State) (d : Dev) : (s.setDev d).port = s.port := rfl
@[simp] theorem State.setDev_calls (s : State) (d : Dev) : (s.setDev d).calls = s.calls := rfl
@[simp] theorem State.setDev_busCalls (s : State) (d : Dev) : (s.setDev d).busCalls = s.busCalls := rfl
@[simp] theorem State.setDev_turn (s : State) (d : Dev) : (s.setDev d).turn = s.turn := rfl
@[simp] theorem State.setDev_free (s : State) (d : Dev) : (s.setDev d).free = s.free := rfl

@[simp] theorem State.setCtl_cfg (s : State) (c : Ctl) : (s.setCtl c).cfg = s.cfg := rfl
@[simp] theorem State.setCtl_dev (s : State) (c : Ctl) : (s.setCtl c).dev = s.dev := rfl
@[simp] theorem State.setCtl_ctl (s : State) (c : Ctl) : (s.setCtl c).ctl = c := rfl
@[simp] theorem State.setCtl_air (s : State) (c : Ctl) : (s.setCtl c).air = s.air := rfl
@[simp] theorem State.setCtl_fault (s : State) (c : Ctl) : (s.setCtl c).fault = s.fault := rfl
@[simp] theorem State.setCtl_refusal (s : State) (c : Ctl) : (s.setCtl c).refusal = s.refusal := rfl
@[simp] theorem State.setCtl_bus (s : State) (c : Ctl) : (s.setCtl c).bus = s.bus := rfl
@[simp] theorem State.setCtl_port (s : State) (c : Ctl) : (s.setCtl c).port = s.port := rfl
@[simp] theorem State.setCtl_calls (s : State) (c : Ctl) : (s.setCtl c).calls = s.calls := rfl
@[simp] theorem State.setCtl_busCalls (s : State) (c : Ctl) : (s.setCtl c).busCalls = s.busCalls := rfl
@[simp] theorem State.setCtl_turn (s : State) (c : Ctl) : (s.setCtl c).turn = s.turn := rfl
@[simp] theorem State.setCtl_free (s : State) (c : Ctl) : (s.setCtl c).free = s.free := rfl

@[simp] theorem State.setAir_cfg (s : State) (e : List Emission) : (s.setAir e).cfg = s.cfg := rfl
@[simp] theorem State.setAir_dev (s : State) (e : List Emission) : (s.setAir e).dev = s.dev := rfl
@[simp] theorem State.setAir_ctl (s : State) (e : List Emission) : (s.setAir e).ctl = s.ctl := rfl
@[simp] theorem State.setAir_air (s : State) (e : List Emission) : (s.setAir e).air = e := rfl
@[simp] theorem State.setAir_fault (s : State) (e : List Emission) : (s.setAir e).fault = s.fault := rfl
@[simp] theorem State.setAir_refusal (s : State) (e : List Emission) : (s.setAir e).refusal = s.refusal := rfl
@[simp] theorem State.setAir_bus (s : State) (e : List Emission) : (s.setAir e).bus = s.bus := rfl
@[simp] theorem State.setAir_port (s : State) (e : List Emission) : (s.setAir e).port = s.port := rfl
@[simp] theorem State.setAir_calls (s : State) (e : List Emission) : (s.setAir e).calls = s.calls := rfl
@[simp] theorem State.setAir_busCalls (s : State) (e : List Emission) : (s.setAir e).busCalls = s.busCalls := rfl
@[simp] theorem State.setAir_turn (s : State) (e : List Emission) : (s.setAir e).turn = s.turn := rfl
@[simp] theorem State.setAir_free (s : State) (e : List Emission) : (s.setAir e).free = s.free := rfl

@[simp] theorem State.setFault_cfg (s : State) (f : Option Fault) : (s.setFault f).cfg = s.cfg := rfl
@[simp] theorem State.setFault_dev (s : State) (f : Option Fault) : (s.setFault f).dev = s.dev := rfl
@[simp] theorem State.setFault_ctl (s : State) (f : Option Fault) : (s.setFault f).ctl = s.ctl := rfl
@[simp] theorem State.setFault_air (s : State) (f : Option Fault) : (s.setFault f).air = s.air := rfl
@[simp] theorem State.setFault_fault (s : State) (f : Option Fault) : (s.setFault f).fault = f := rfl
@[simp] theorem State.setFault_refusal (s : State) (f : Option Fault) : (s.setFault f).refusal = s.refusal := rfl
@[simp] theorem State.setFault_bus (s : State) (f : Option Fault) : (s.setFault f).bus = s.bus := rfl
@[simp] theorem State.setFault_port (s : State) (f : Option Fault) : (s.setFault f).port = s.port := rfl
@[simp] theorem State.setFault_calls (s : State) (f : Option Fault) : (s.setFault f).calls = s.calls := rfl
@[simp] theorem State.setFault_busCalls (s : State) (f : Option Fault) : (s.setFault f).busCalls = s.busCalls := rfl
@[simp] theorem State.setFault_turn (s : State) (f : Option Fault) : (s.setFault f).turn = s.turn := rfl
@[simp] theorem State.setFault_free (s : State) (f : Option Fault) : (s.setFault f).free = s.free := rfl

@[simp] theorem State.setRefusal_cfg (s : State) (r : Option Refusal) : (s.setRefusal r).cfg = s.cfg := rfl
@[simp] theorem State.setRefusal_dev (s : State) (r : Option Refusal) : (s.setRefusal r).dev = s.dev := rfl
@[simp] theorem State.setRefusal_ctl (s : State) (r : Option Refusal) : (s.setRefusal r).ctl = s.ctl := rfl
@[simp] theorem State.setRefusal_air (s : State) (r : Option Refusal) : (s.setRefusal r).air = s.air := rfl
@[simp] theorem State.setRefusal_fault (s : State) (r : Option Refusal) : (s.setRefusal r).fault = s.fault := rfl
@[simp] theorem State.setRefusal_refusal (s : State) (r : Option Refusal) : (s.setRefusal r).refusal = r := rfl
@[simp] theorem State.setRefusal_bus (s : State) (r : Option Refusal) : (s.setRefusal r).bus = s.bus := rfl
@[simp] theorem State.setRefusal_port (s : State) (r : Option Refusal) : (s.setRefusal r).port = s.port := rfl
@[simp] theorem State.setRefusal_calls (s : State) (r : Option Refusal) : (s.setRefusal r).calls = s.calls := rfl
@[simp] theorem State.setRefusal_busCalls (s : State) (r : Option Refusal) : (s.setRefusal r).busCalls = s.busCalls := rfl
@[simp] theorem State.setRefusal_turn (s : State) (r : Option Refusal) : (s.setRefusal r).turn = s.turn := rfl
@[simp] theorem State.setRefusal_free (s : State) (r : Option Refusal) : (s.setRefusal r).free = s.free := rfl

@[simp] theorem State.setBus_cfg (s : State) (b : BusIn) : (s.setBus b).cfg = s.cfg := rfl
@[simp] theorem State.setBus_dev (s : State) (b : BusIn) : (s.setBus b).dev = s.dev := rfl
@[simp] theorem State.setBus_ctl (s : State) (b : BusIn) : (s.setBus b).ctl = s.ctl := rfl
@[simp] theorem State.setBus_air (s : State) (b : BusIn) : (s.setBus b).air = s.air := rfl
@[simp] theorem State.setBus_fault (s : State) (b : BusIn) : (s.setBus b).fault = s.fault := rfl
@[simp] theorem State.setBus_refusal (s : State) (b : BusIn) : (s.setBus b).refusal = s.refusal := rfl
@[simp] theorem State.setBus_bus (s : State) (b : BusIn) : (s.setBus b).bus = b := rfl
@[simp] theorem State.setBus_port (s : State) (b : BusIn) : (s.setBus b).port = s.port := rfl
@[simp] theorem State.setBus_calls (s : State) (b : BusIn) : (s.setBus b).calls = s.calls := rfl
@[simp] theorem State.setBus_busCalls (s : State) (b : BusIn) : (s.setBus b).busCalls = s.busCalls := rfl
@[simp] theorem State.setBus_turn (s : State) (b : BusIn) : (s.setBus b).turn = s.turn := rfl
@[simp] theorem State.setBus_free (s : State) (b : BusIn) : (s.setBus b).free = s.free := rfl

@[simp] theorem State.setPort_cfg (s : State) (p : List Request) : (s.setPort p).cfg = s.cfg := rfl
@[simp] theorem State.setPort_dev (s : State) (p : List Request) : (s.setPort p).dev = s.dev := rfl
@[simp] theorem State.setPort_ctl (s : State) (p : List Request) : (s.setPort p).ctl = s.ctl := rfl
@[simp] theorem State.setPort_air (s : State) (p : List Request) : (s.setPort p).air = s.air := rfl
@[simp] theorem State.setPort_fault (s : State) (p : List Request) : (s.setPort p).fault = s.fault := rfl
@[simp] theorem State.setPort_refusal (s : State) (p : List Request) : (s.setPort p).refusal = s.refusal := rfl
@[simp] theorem State.setPort_bus (s : State) (p : List Request) : (s.setPort p).bus = s.bus := rfl
@[simp] theorem State.setPort_port (s : State) (p : List Request) : (s.setPort p).port = p := rfl
@[simp] theorem State.setPort_calls (s : State) (p : List Request) : (s.setPort p).calls = s.calls := rfl
@[simp] theorem State.setPort_busCalls (s : State) (p : List Request) : (s.setPort p).busCalls = s.busCalls := rfl
@[simp] theorem State.setPort_turn (s : State) (p : List Request) : (s.setPort p).turn = s.turn := rfl
@[simp] theorem State.setPort_free (s : State) (p : List Request) : (s.setPort p).free = s.free := rfl

@[simp] theorem State.setCalls_cfg (s : State) (c : List CodecCall) : (s.setCalls c).cfg = s.cfg := rfl
@[simp] theorem State.setCalls_dev (s : State) (c : List CodecCall) : (s.setCalls c).dev = s.dev := rfl
@[simp] theorem State.setCalls_ctl (s : State) (c : List CodecCall) : (s.setCalls c).ctl = s.ctl := rfl
@[simp] theorem State.setCalls_air (s : State) (c : List CodecCall) : (s.setCalls c).air = s.air := rfl
@[simp] theorem State.setCalls_fault (s : State) (c : List CodecCall) : (s.setCalls c).fault = s.fault := rfl
@[simp] theorem State.setCalls_refusal (s : State) (c : List CodecCall) : (s.setCalls c).refusal = s.refusal := rfl
@[simp] theorem State.setCalls_bus (s : State) (c : List CodecCall) : (s.setCalls c).bus = s.bus := rfl
@[simp] theorem State.setCalls_port (s : State) (c : List CodecCall) : (s.setCalls c).port = s.port := rfl
@[simp] theorem State.setCalls_calls (s : State) (c : List CodecCall) : (s.setCalls c).calls = c := rfl
@[simp] theorem State.setCalls_busCalls (s : State) (c : List CodecCall) : (s.setCalls c).busCalls = s.busCalls := rfl
@[simp] theorem State.setCalls_turn (s : State) (c : List CodecCall) : (s.setCalls c).turn = s.turn := rfl
@[simp] theorem State.setCalls_free (s : State) (c : List CodecCall) : (s.setCalls c).free = s.free := rfl

@[simp] theorem State.setBusCalls_cfg (s : State) (b : List BusCall) : (s.setBusCalls b).cfg = s.cfg := rfl
@[simp] theorem State.setBusCalls_dev (s : State) (b : List BusCall) : (s.setBusCalls b).dev = s.dev := rfl
@[simp] theorem State.setBusCalls_ctl (s : State) (b : List BusCall) : (s.setBusCalls b).ctl = s.ctl := rfl
@[simp] theorem State.setBusCalls_air (s : State) (b : List BusCall) : (s.setBusCalls b).air = s.air := rfl
@[simp] theorem State.setBusCalls_fault (s : State) (b : List BusCall) : (s.setBusCalls b).fault = s.fault := rfl
@[simp] theorem State.setBusCalls_refusal (s : State) (b : List BusCall) : (s.setBusCalls b).refusal = s.refusal := rfl
@[simp] theorem State.setBusCalls_bus (s : State) (b : List BusCall) : (s.setBusCalls b).bus = s.bus := rfl
@[simp] theorem State.setBusCalls_port (s : State) (b : List BusCall) : (s.setBusCalls b).port = s.port := rfl
@[simp] theorem State.setBusCalls_calls (s : State) (b : List BusCall) : (s.setBusCalls b).calls = s.calls := rfl
@[simp] theorem State.setBusCalls_busCalls (s : State) (b : List BusCall) : (s.setBusCalls b).busCalls = b := rfl
@[simp] theorem State.setBusCalls_turn (s : State) (b : List BusCall) : (s.setBusCalls b).turn = s.turn := rfl
@[simp] theorem State.setBusCalls_free (s : State) (b : List BusCall) : (s.setBusCalls b).free = s.free := rfl

@[simp] theorem State.setTurn_cfg (s : State) (t : Turn) : (s.setTurn t).cfg = s.cfg := rfl
@[simp] theorem State.setTurn_dev (s : State) (t : Turn) : (s.setTurn t).dev = s.dev := rfl
@[simp] theorem State.setTurn_ctl (s : State) (t : Turn) : (s.setTurn t).ctl = s.ctl := rfl
@[simp] theorem State.setTurn_air (s : State) (t : Turn) : (s.setTurn t).air = s.air := rfl
@[simp] theorem State.setTurn_fault (s : State) (t : Turn) : (s.setTurn t).fault = s.fault := rfl
@[simp] theorem State.setTurn_refusal (s : State) (t : Turn) : (s.setTurn t).refusal = s.refusal := rfl
@[simp] theorem State.setTurn_bus (s : State) (t : Turn) : (s.setTurn t).bus = s.bus := rfl
@[simp] theorem State.setTurn_port (s : State) (t : Turn) : (s.setTurn t).port = s.port := rfl
@[simp] theorem State.setTurn_calls (s : State) (t : Turn) : (s.setTurn t).calls = s.calls := rfl
@[simp] theorem State.setTurn_busCalls (s : State) (t : Turn) : (s.setTurn t).busCalls = s.busCalls := rfl
@[simp] theorem State.setTurn_turn (s : State) (t : Turn) : (s.setTurn t).turn = t := rfl
@[simp] theorem State.setTurn_free (s : State) (t : Turn) : (s.setTurn t).free = s.free := rfl

@[simp] theorem State.setFree_cfg (s : State) (n : Nat) : (s.setFree n).cfg = s.cfg := rfl
@[simp] theorem State.setFree_dev (s : State) (n : Nat) : (s.setFree n).dev = s.dev := rfl
@[simp] theorem State.setFree_ctl (s : State) (n : Nat) : (s.setFree n).ctl = s.ctl := rfl
@[simp] theorem State.setFree_air (s : State) (n : Nat) : (s.setFree n).air = s.air := rfl
@[simp] theorem State.setFree_fault (s : State) (n : Nat) : (s.setFree n).fault = s.fault := rfl
@[simp] theorem State.setFree_refusal (s : State) (n : Nat) : (s.setFree n).refusal = s.refusal := rfl
@[simp] theorem State.setFree_bus (s : State) (n : Nat) : (s.setFree n).bus = s.bus := rfl
@[simp] theorem State.setFree_port (s : State) (n : Nat) : (s.setFree n).port = s.port := rfl
@[simp] theorem State.setFree_calls (s : State) (n : Nat) : (s.setFree n).calls = s.calls := rfl
@[simp] theorem State.setFree_busCalls (s : State) (n : Nat) : (s.setFree n).busCalls = s.busCalls := rfl
@[simp] theorem State.setFree_turn (s : State) (n : Nat) : (s.setFree n).turn = s.turn := rfl
@[simp] theorem State.setFree_free (s : State) (n : Nat) : (s.setFree n).free = n := rfl

@[simp] theorem State.setOp_cfg (s : State) (o : Op) : (s.setOp o).cfg = s.cfg := rfl
@[simp] theorem State.setOp_dev (s : State) (o : Op) : (s.setOp o).dev = s.dev := rfl
@[simp] theorem State.setOp_ctl (s : State) (o : Op) : (s.setOp o).ctl = { s.ctl with op := o } := rfl
@[simp] theorem State.setOp_air (s : State) (o : Op) : (s.setOp o).air = s.air := rfl
@[simp] theorem State.setOp_fault (s : State) (o : Op) : (s.setOp o).fault = s.fault := rfl
@[simp] theorem State.setOp_refusal (s : State) (o : Op) : (s.setOp o).refusal = s.refusal := rfl
@[simp] theorem State.setOp_bus (s : State) (o : Op) : (s.setOp o).bus = s.bus := rfl
@[simp] theorem State.setOp_port (s : State) (o : Op) : (s.setOp o).port = s.port := rfl
@[simp] theorem State.setOp_calls (s : State) (o : Op) : (s.setOp o).calls = s.calls := rfl
@[simp] theorem State.setOp_busCalls (s : State) (o : Op) : (s.setOp o).busCalls = s.busCalls := rfl
@[simp] theorem State.setOp_turn (s : State) (o : Op) : (s.setOp o).turn = s.turn := rfl
@[simp] theorem State.setOp_free (s : State) (o : Op) : (s.setOp o).free = s.free := rfl

@[simp] theorem State.setLife_cfg (s : State) (l : Life) : (s.setLife l).cfg = s.cfg := rfl
@[simp] theorem State.setLife_dev (s : State) (l : Life) : (s.setLife l).dev = s.dev := rfl
@[simp] theorem State.setLife_ctl (s : State) (l : Life) : (s.setLife l).ctl = { s.ctl with life := l } := rfl
@[simp] theorem State.setLife_air (s : State) (l : Life) : (s.setLife l).air = s.air := rfl
@[simp] theorem State.setLife_fault (s : State) (l : Life) : (s.setLife l).fault = s.fault := rfl
@[simp] theorem State.setLife_refusal (s : State) (l : Life) : (s.setLife l).refusal = s.refusal := rfl
@[simp] theorem State.setLife_bus (s : State) (l : Life) : (s.setLife l).bus = s.bus := rfl
@[simp] theorem State.setLife_port (s : State) (l : Life) : (s.setLife l).port = s.port := rfl
@[simp] theorem State.setLife_calls (s : State) (l : Life) : (s.setLife l).calls = s.calls := rfl
@[simp] theorem State.setLife_busCalls (s : State) (l : Life) : (s.setLife l).busCalls = s.busCalls := rfl
@[simp] theorem State.setLife_turn (s : State) (l : Life) : (s.setLife l).turn = s.turn := rfl
@[simp] theorem State.setLife_free (s : State) (l : Life) : (s.setLife l).free = s.free := rfl

@[simp] theorem State.setResult_cfg (s : State) (r : Option Result) : (s.setResult r).cfg = s.cfg := rfl
@[simp] theorem State.setResult_dev (s : State) (r : Option Result) : (s.setResult r).dev = s.dev := rfl
@[simp] theorem State.setResult_ctl (s : State) (r : Option Result) : (s.setResult r).ctl = { s.ctl with result := r } := rfl
@[simp] theorem State.setResult_air (s : State) (r : Option Result) : (s.setResult r).air = s.air := rfl
@[simp] theorem State.setResult_fault (s : State) (r : Option Result) : (s.setResult r).fault = s.fault := rfl
@[simp] theorem State.setResult_refusal (s : State) (r : Option Result) : (s.setResult r).refusal = s.refusal := rfl
@[simp] theorem State.setResult_bus (s : State) (r : Option Result) : (s.setResult r).bus = s.bus := rfl
@[simp] theorem State.setResult_port (s : State) (r : Option Result) : (s.setResult r).port = s.port := rfl
@[simp] theorem State.setResult_calls (s : State) (r : Option Result) : (s.setResult r).calls = s.calls := rfl
@[simp] theorem State.setResult_busCalls (s : State) (r : Option Result) : (s.setResult r).busCalls = s.busCalls := rfl
@[simp] theorem State.setResult_turn (s : State) (r : Option Result) : (s.setResult r).turn = s.turn := rfl
@[simp] theorem State.setResult_free (s : State) (r : Option Result) : (s.setResult r).free = s.free := rfl

@[simp] theorem State.setLine_cfg (s : State) (l : Line) : (s.setLine l).cfg = s.cfg := rfl
@[simp] theorem State.setLine_dev (s : State) (l : Line) : (s.setLine l).dev = { s.dev with resetLine := l } := rfl
@[simp] theorem State.setLine_ctl (s : State) (l : Line) : (s.setLine l).ctl = s.ctl := rfl
@[simp] theorem State.setLine_air (s : State) (l : Line) : (s.setLine l).air = s.air := rfl
@[simp] theorem State.setLine_fault (s : State) (l : Line) : (s.setLine l).fault = s.fault := rfl
@[simp] theorem State.setLine_refusal (s : State) (l : Line) : (s.setLine l).refusal = s.refusal := rfl
@[simp] theorem State.setLine_bus (s : State) (l : Line) : (s.setLine l).bus = s.bus := rfl
@[simp] theorem State.setLine_port (s : State) (l : Line) : (s.setLine l).port = s.port := rfl
@[simp] theorem State.setLine_calls (s : State) (l : Line) : (s.setLine l).calls = s.calls := rfl
@[simp] theorem State.setLine_busCalls (s : State) (l : Line) : (s.setLine l).busCalls = s.busCalls := rfl
@[simp] theorem State.setLine_turn (s : State) (l : Line) : (s.setLine l).turn = s.turn := rfl
@[simp] theorem State.setLine_free (s : State) (l : Line) : (s.setLine l).free = s.free := rfl

@[simp] theorem State.setRegs_cfg (s : State) (g : Regs) : (s.setRegs g).cfg = s.cfg := rfl
@[simp] theorem State.setRegs_dev (s : State) (g : Regs) : (s.setRegs g).dev = { s.dev with regs := g } := rfl
@[simp] theorem State.setRegs_ctl (s : State) (g : Regs) : (s.setRegs g).ctl = s.ctl := rfl
@[simp] theorem State.setRegs_air (s : State) (g : Regs) : (s.setRegs g).air = s.air := rfl
@[simp] theorem State.setRegs_fault (s : State) (g : Regs) : (s.setRegs g).fault = s.fault := rfl
@[simp] theorem State.setRegs_refusal (s : State) (g : Regs) : (s.setRegs g).refusal = s.refusal := rfl
@[simp] theorem State.setRegs_bus (s : State) (g : Regs) : (s.setRegs g).bus = s.bus := rfl
@[simp] theorem State.setRegs_port (s : State) (g : Regs) : (s.setRegs g).port = s.port := rfl
@[simp] theorem State.setRegs_calls (s : State) (g : Regs) : (s.setRegs g).calls = s.calls := rfl
@[simp] theorem State.setRegs_busCalls (s : State) (g : Regs) : (s.setRegs g).busCalls = s.busCalls := rfl
@[simp] theorem State.setRegs_turn (s : State) (g : Regs) : (s.setRegs g).turn = s.turn := rfl
@[simp] theorem State.setRegs_free (s : State) (g : Regs) : (s.setRegs g).free = s.free := rfl

@[simp] theorem State.setFifo_cfg (s : State) (m : Memory) : (s.setFifo m).cfg = s.cfg := rfl
@[simp] theorem State.setFifo_dev (s : State) (m : Memory) : (s.setFifo m).dev = { s.dev with fifo := m } := rfl
@[simp] theorem State.setFifo_ctl (s : State) (m : Memory) : (s.setFifo m).ctl = s.ctl := rfl
@[simp] theorem State.setFifo_air (s : State) (m : Memory) : (s.setFifo m).air = s.air := rfl
@[simp] theorem State.setFifo_fault (s : State) (m : Memory) : (s.setFifo m).fault = s.fault := rfl
@[simp] theorem State.setFifo_refusal (s : State) (m : Memory) : (s.setFifo m).refusal = s.refusal := rfl
@[simp] theorem State.setFifo_bus (s : State) (m : Memory) : (s.setFifo m).bus = s.bus := rfl
@[simp] theorem State.setFifo_port (s : State) (m : Memory) : (s.setFifo m).port = s.port := rfl
@[simp] theorem State.setFifo_calls (s : State) (m : Memory) : (s.setFifo m).calls = s.calls := rfl
@[simp] theorem State.setFifo_busCalls (s : State) (m : Memory) : (s.setFifo m).busCalls = s.busCalls := rfl
@[simp] theorem State.setFifo_turn (s : State) (m : Memory) : (s.setFifo m).turn = s.turn := rfl
@[simp] theorem State.setFifo_free (s : State) (m : Memory) : (s.setFifo m).free = s.free := rfl

@[simp] theorem State.tick_cfg (s : State) : s.tick.cfg = s.cfg := rfl
@[simp] theorem State.tick_dev (s : State) : s.tick.dev = s.dev := rfl
@[simp] theorem State.tick_ctl (s : State) : s.tick.ctl = s.ctl := rfl
@[simp] theorem State.tick_air (s : State) : s.tick.air = s.air := rfl
@[simp] theorem State.tick_fault (s : State) : s.tick.fault = s.fault := rfl
@[simp] theorem State.tick_refusal (s : State) : s.tick.refusal = s.refusal := rfl
@[simp] theorem State.tick_bus (s : State) : s.tick.bus = s.bus := rfl
@[simp] theorem State.tick_port (s : State) : s.tick.port = s.port := rfl
@[simp] theorem State.tick_calls (s : State) : s.tick.calls = s.calls := rfl
@[simp] theorem State.tick_busCalls (s : State) : s.tick.busCalls = s.busCalls := rfl
@[simp] theorem State.tick_turn (s : State) : s.tick.turn = s.turn := rfl
@[simp] theorem State.tick_free (s : State) : s.tick.free = s.free + 1 := rfl

@[simp] theorem State.respond_cfg (s : State) (v : Byte) : (s.respond v).cfg = s.cfg := rfl
@[simp] theorem State.respond_dev (s : State) (v : Byte) : (s.respond v).dev = s.dev := rfl
@[simp] theorem State.respond_ctl (s : State) (v : Byte) : (s.respond v).ctl = s.ctl := rfl
@[simp] theorem State.respond_air (s : State) (v : Byte) : (s.respond v).air = s.air := rfl
@[simp] theorem State.respond_fault (s : State) (v : Byte) : (s.respond v).fault = s.fault := rfl
@[simp] theorem State.respond_refusal (s : State) (v : Byte) : (s.respond v).refusal = s.refusal := rfl
@[simp] theorem State.respond_bus (s : State) (v : Byte) : (s.respond v).bus = ⟨Config.freeByte s.free, v⟩ := rfl
@[simp] theorem State.respond_port (s : State) (v : Byte) : (s.respond v).port = s.port := rfl
@[simp] theorem State.respond_calls (s : State) (v : Byte) : (s.respond v).calls = s.calls := rfl
@[simp] theorem State.respond_busCalls (s : State) (v : Byte) : (s.respond v).busCalls = s.busCalls := rfl
@[simp] theorem State.respond_turn (s : State) (v : Byte) : (s.respond v).turn = s.turn := rfl
@[simp] theorem State.respond_free (s : State) (v : Byte) : (s.respond v).free = s.free + 1 := rfl

@[simp] theorem State.respondDrawn_cfg (s : State) : s.respondDrawn.cfg = s.cfg := rfl
@[simp] theorem State.respondDrawn_dev (s : State) : s.respondDrawn.dev = s.dev := rfl
@[simp] theorem State.respondDrawn_ctl (s : State) : s.respondDrawn.ctl = s.ctl := rfl
@[simp] theorem State.respondDrawn_air (s : State) : s.respondDrawn.air = s.air := rfl
@[simp] theorem State.respondDrawn_fault (s : State) : s.respondDrawn.fault = s.fault := rfl
@[simp] theorem State.respondDrawn_refusal (s : State) : s.respondDrawn.refusal = s.refusal := rfl
@[simp] theorem State.respondDrawn_bus (s : State) : s.respondDrawn.bus = ⟨Config.freeByte s.free, Config.freeByte (s.free + 1)⟩ := rfl
@[simp] theorem State.respondDrawn_port (s : State) : s.respondDrawn.port = s.port := rfl
@[simp] theorem State.respondDrawn_calls (s : State) : s.respondDrawn.calls = s.calls := rfl
@[simp] theorem State.respondDrawn_busCalls (s : State) : s.respondDrawn.busCalls = s.busCalls := rfl
@[simp] theorem State.respondDrawn_turn (s : State) : s.respondDrawn.turn = s.turn := rfl
@[simp] theorem State.respondDrawn_free (s : State) : s.respondDrawn.free = s.free + 1 + 1 := rfl

@[simp] theorem State.setReg_cfg (s : State) (r : StoreReg) (v : Byte) : (s.setReg r v).cfg = s.cfg := rfl
@[simp] theorem State.setReg_dev (s : State) (r : StoreReg) (v : Byte) : (s.setReg r v).dev = { s.dev with regs := s.dev.regs.set (.known v) r } := rfl
@[simp] theorem State.setReg_ctl (s : State) (r : StoreReg) (v : Byte) : (s.setReg r v).ctl = s.ctl := rfl
@[simp] theorem State.setReg_air (s : State) (r : StoreReg) (v : Byte) : (s.setReg r v).air = s.air := rfl
@[simp] theorem State.setReg_fault (s : State) (r : StoreReg) (v : Byte) : (s.setReg r v).fault = s.fault := rfl
@[simp] theorem State.setReg_refusal (s : State) (r : StoreReg) (v : Byte) : (s.setReg r v).refusal = s.refusal := rfl
@[simp] theorem State.setReg_bus (s : State) (r : StoreReg) (v : Byte) : (s.setReg r v).bus = s.bus := rfl
@[simp] theorem State.setReg_port (s : State) (r : StoreReg) (v : Byte) : (s.setReg r v).port = s.port := rfl
@[simp] theorem State.setReg_calls (s : State) (r : StoreReg) (v : Byte) : (s.setReg r v).calls = s.calls := rfl
@[simp] theorem State.setReg_busCalls (s : State) (r : StoreReg) (v : Byte) : (s.setReg r v).busCalls = s.busCalls := rfl
@[simp] theorem State.setReg_turn (s : State) (r : StoreReg) (v : Byte) : (s.setReg r v).turn = s.turn := rfl
@[simp] theorem State.setReg_free (s : State) (r : StoreReg) (v : Byte) : (s.setReg r v).free = s.free := rfl

@[simp] theorem State.setBuf_cfg (s : State) (p v : Byte) : (s.setBuf p v).cfg = s.cfg := rfl
@[simp] theorem State.setBuf_dev (s : State) (p v : Byte) : (s.setBuf p v).dev = { s.dev with fifo := s.dev.fifo.write p.toNat v } := rfl
@[simp] theorem State.setBuf_ctl (s : State) (p v : Byte) : (s.setBuf p v).ctl = s.ctl := rfl
@[simp] theorem State.setBuf_air (s : State) (p v : Byte) : (s.setBuf p v).air = s.air := rfl
@[simp] theorem State.setBuf_fault (s : State) (p v : Byte) : (s.setBuf p v).fault = s.fault := rfl
@[simp] theorem State.setBuf_refusal (s : State) (p v : Byte) : (s.setBuf p v).refusal = s.refusal := rfl
@[simp] theorem State.setBuf_bus (s : State) (p v : Byte) : (s.setBuf p v).bus = s.bus := rfl
@[simp] theorem State.setBuf_port (s : State) (p v : Byte) : (s.setBuf p v).port = s.port := rfl
@[simp] theorem State.setBuf_calls (s : State) (p v : Byte) : (s.setBuf p v).calls = s.calls := rfl
@[simp] theorem State.setBuf_busCalls (s : State) (p v : Byte) : (s.setBuf p v).busCalls = s.busCalls := rfl
@[simp] theorem State.setBuf_turn (s : State) (p v : Byte) : (s.setBuf p v).turn = s.turn := rfl
@[simp] theorem State.setBuf_free (s : State) (p v : Byte) : (s.setBuf p v).free = s.free := rfl

@[simp] theorem State.finish_cfg (s : State) (r : Result) : (s.finish r).cfg = s.cfg := rfl
@[simp] theorem State.finish_dev (s : State) (r : Result) : (s.finish r).dev = s.dev := rfl
@[simp] theorem State.finish_ctl (s : State) (r : Result) : (s.finish r).ctl = { s.ctl with op := .idle, result := some r } := rfl
@[simp] theorem State.finish_air (s : State) (r : Result) : (s.finish r).air = s.air := rfl
@[simp] theorem State.finish_fault (s : State) (r : Result) : (s.finish r).fault = s.fault := rfl
@[simp] theorem State.finish_refusal (s : State) (r : Result) : (s.finish r).refusal = s.refusal := rfl
@[simp] theorem State.finish_bus (s : State) (r : Result) : (s.finish r).bus = s.bus := rfl
@[simp] theorem State.finish_port (s : State) (r : Result) : (s.finish r).port = s.port := rfl
@[simp] theorem State.finish_calls (s : State) (r : Result) : (s.finish r).calls = s.calls := rfl
@[simp] theorem State.finish_busCalls (s : State) (r : Result) : (s.finish r).busCalls = s.busCalls := rfl
@[simp] theorem State.finish_turn (s : State) (r : Result) : (s.finish r).turn = s.turn := rfl
@[simp] theorem State.finish_free (s : State) (r : Result) : (s.finish r).free = s.free := rfl

@[simp] theorem State.goto_cfg (s : State) (req : Request) (pc sub : Nat) (loc : Locals) : (s.goto req pc sub loc).cfg = s.cfg := rfl
@[simp] theorem State.goto_dev (s : State) (req : Request) (pc sub : Nat) (loc : Locals) : (s.goto req pc sub loc).dev = s.dev := rfl
@[simp] theorem State.goto_ctl (s : State) (req : Request) (pc sub : Nat) (loc : Locals) : (s.goto req pc sub loc).ctl = { s.ctl with op := .running req pc sub loc } := rfl
@[simp] theorem State.goto_air (s : State) (req : Request) (pc sub : Nat) (loc : Locals) : (s.goto req pc sub loc).air = s.air := rfl
@[simp] theorem State.goto_fault (s : State) (req : Request) (pc sub : Nat) (loc : Locals) : (s.goto req pc sub loc).fault = s.fault := rfl
@[simp] theorem State.goto_refusal (s : State) (req : Request) (pc sub : Nat) (loc : Locals) : (s.goto req pc sub loc).refusal = s.refusal := rfl
@[simp] theorem State.goto_bus (s : State) (req : Request) (pc sub : Nat) (loc : Locals) : (s.goto req pc sub loc).bus = s.bus := rfl
@[simp] theorem State.goto_port (s : State) (req : Request) (pc sub : Nat) (loc : Locals) : (s.goto req pc sub loc).port = s.port := rfl
@[simp] theorem State.goto_calls (s : State) (req : Request) (pc sub : Nat) (loc : Locals) : (s.goto req pc sub loc).calls = s.calls := rfl
@[simp] theorem State.goto_busCalls (s : State) (req : Request) (pc sub : Nat) (loc : Locals) : (s.goto req pc sub loc).busCalls = s.busCalls := rfl
@[simp] theorem State.goto_turn (s : State) (req : Request) (pc sub : Nat) (loc : Locals) : (s.goto req pc sub loc).turn = s.turn := rfl
@[simp] theorem State.goto_free (s : State) (req : Request) (pc sub : Nat) (loc : Locals) : (s.goto req pc sub loc).free = s.free := rfl

@[simp] theorem State.hold_cfg (s : State) (req : Request) : (s.hold req).cfg = s.cfg := rfl
@[simp] theorem State.hold_dev (s : State) (req : Request) : (s.hold req).dev = s.dev := rfl
@[simp] theorem State.hold_ctl (s : State) (req : Request) : (s.hold req).ctl = s.ctl := rfl
@[simp] theorem State.hold_air (s : State) (req : Request) : (s.hold req).air = s.air := rfl
@[simp] theorem State.hold_fault (s : State) (req : Request) : (s.hold req).fault = s.fault := rfl
@[simp] theorem State.hold_refusal (s : State) (req : Request) : (s.hold req).refusal = s.refusal := rfl
@[simp] theorem State.hold_bus (s : State) (req : Request) : (s.hold req).bus = s.bus := rfl
@[simp] theorem State.hold_port (s : State) (req : Request) : (s.hold req).port = s.port ++ [req] := rfl
@[simp] theorem State.hold_calls (s : State) (req : Request) : (s.hold req).calls = s.calls := rfl
@[simp] theorem State.hold_busCalls (s : State) (req : Request) : (s.hold req).busCalls = s.busCalls := rfl
@[simp] theorem State.hold_turn (s : State) (req : Request) : (s.hold req).turn = s.turn := rfl
@[simp] theorem State.hold_free (s : State) (req : Request) : (s.hold req).free = s.free := rfl

@[simp] theorem State.start_cfg (s : State) (req : Request) : (s.start req).cfg = s.cfg := rfl
@[simp] theorem State.start_dev (s : State) (req : Request) : (s.start req).dev = s.dev := rfl
@[simp] theorem State.start_ctl (s : State) (req : Request) : (s.start req).ctl = { s.ctl with op := .running req 1 (firstSub req) Locals.blank } := rfl
@[simp] theorem State.start_air (s : State) (req : Request) : (s.start req).air = s.air := rfl
@[simp] theorem State.start_fault (s : State) (req : Request) : (s.start req).fault = s.fault := rfl
@[simp] theorem State.start_refusal (s : State) (req : Request) : (s.start req).refusal = s.refusal := rfl
@[simp] theorem State.start_bus (s : State) (req : Request) : (s.start req).bus = s.bus := rfl
@[simp] theorem State.start_port (s : State) (req : Request) : (s.start req).port = s.port := rfl
@[simp] theorem State.start_calls (s : State) (req : Request) : (s.start req).calls = s.calls := rfl
@[simp] theorem State.start_busCalls (s : State) (req : Request) : (s.start req).busCalls = s.busCalls := rfl
@[simp] theorem State.start_turn (s : State) (req : Request) : (s.start req).turn = s.turn := rfl
@[simp] theorem State.start_free (s : State) (req : Request) : (s.start req).free = s.free := rfl

@[simp] theorem State.setTxJob_cfg (s : State) (j : Option (List Byte)) : (s.setTxJob j).cfg = s.cfg := rfl
@[simp] theorem State.setTxJob_dev (s : State) (j : Option (List Byte)) : (s.setTxJob j).dev = { s.dev with txJob := j } := rfl
@[simp] theorem State.setTxJob_ctl (s : State) (j : Option (List Byte)) : (s.setTxJob j).ctl = s.ctl := rfl
@[simp] theorem State.setTxJob_air (s : State) (j : Option (List Byte)) : (s.setTxJob j).air = s.air := rfl
@[simp] theorem State.setTxJob_fault (s : State) (j : Option (List Byte)) : (s.setTxJob j).fault = s.fault := rfl
@[simp] theorem State.setTxJob_refusal (s : State) (j : Option (List Byte)) : (s.setTxJob j).refusal = s.refusal := rfl
@[simp] theorem State.setTxJob_bus (s : State) (j : Option (List Byte)) : (s.setTxJob j).bus = s.bus := rfl
@[simp] theorem State.setTxJob_port (s : State) (j : Option (List Byte)) : (s.setTxJob j).port = s.port := rfl
@[simp] theorem State.setTxJob_calls (s : State) (j : Option (List Byte)) : (s.setTxJob j).calls = s.calls := rfl
@[simp] theorem State.setTxJob_busCalls (s : State) (j : Option (List Byte)) : (s.setTxJob j).busCalls = s.busCalls := rfl
@[simp] theorem State.setTxJob_turn (s : State) (j : Option (List Byte)) : (s.setTxJob j).turn = s.turn := rfl
@[simp] theorem State.setTxJob_free (s : State) (j : Option (List Byte)) : (s.setTxJob j).free = s.free := rfl

@[simp] theorem State.setMode_cfg (s : State) (lr : Bool) (mid : BitVec 4) (m : Mode) : (s.setMode lr mid m).cfg = s.cfg := rfl
@[simp] theorem State.setMode_dev (s : State) (lr : Bool) (mid : BitVec 4) (m : Mode) : (s.setMode lr mid m).dev = { s.dev with lr := lr, mid := .known mid, mode := m } := rfl
@[simp] theorem State.setMode_ctl (s : State) (lr : Bool) (mid : BitVec 4) (m : Mode) : (s.setMode lr mid m).ctl = s.ctl := rfl
@[simp] theorem State.setMode_air (s : State) (lr : Bool) (mid : BitVec 4) (m : Mode) : (s.setMode lr mid m).air = s.air := rfl
@[simp] theorem State.setMode_fault (s : State) (lr : Bool) (mid : BitVec 4) (m : Mode) : (s.setMode lr mid m).fault = s.fault := rfl
@[simp] theorem State.setMode_refusal (s : State) (lr : Bool) (mid : BitVec 4) (m : Mode) : (s.setMode lr mid m).refusal = s.refusal := rfl
@[simp] theorem State.setMode_bus (s : State) (lr : Bool) (mid : BitVec 4) (m : Mode) : (s.setMode lr mid m).bus = s.bus := rfl
@[simp] theorem State.setMode_port (s : State) (lr : Bool) (mid : BitVec 4) (m : Mode) : (s.setMode lr mid m).port = s.port := rfl
@[simp] theorem State.setMode_calls (s : State) (lr : Bool) (mid : BitVec 4) (m : Mode) : (s.setMode lr mid m).calls = s.calls := rfl
@[simp] theorem State.setMode_busCalls (s : State) (lr : Bool) (mid : BitVec 4) (m : Mode) : (s.setMode lr mid m).busCalls = s.busCalls := rfl
@[simp] theorem State.setMode_turn (s : State) (lr : Bool) (mid : BitVec 4) (m : Mode) : (s.setMode lr mid m).turn = s.turn := rfl
@[simp] theorem State.setMode_free (s : State) (lr : Bool) (mid : BitVec 4) (m : Mode) : (s.setMode lr mid m).free = s.free := rfl

@[simp] theorem State.clearFlags_cfg (s : State) (v : Byte) : (s.clearFlags v).cfg = s.cfg := rfl
@[simp] theorem State.clearFlags_dev (s : State) (v : Byte) : (s.clearFlags v).dev = { s.dev with
      txDone := clearedBy v s.cfg.txDoneBit s.dev.txDone
      rxDone := clearedBy v s.cfg.rxDoneBit s.dev.rxDone } := rfl
@[simp] theorem State.clearFlags_ctl (s : State) (v : Byte) : (s.clearFlags v).ctl = s.ctl := rfl
@[simp] theorem State.clearFlags_air (s : State) (v : Byte) : (s.clearFlags v).air = s.air := rfl
@[simp] theorem State.clearFlags_fault (s : State) (v : Byte) : (s.clearFlags v).fault = s.fault := rfl
@[simp] theorem State.clearFlags_refusal (s : State) (v : Byte) : (s.clearFlags v).refusal = s.refusal := rfl
@[simp] theorem State.clearFlags_bus (s : State) (v : Byte) : (s.clearFlags v).bus = s.bus := rfl
@[simp] theorem State.clearFlags_port (s : State) (v : Byte) : (s.clearFlags v).port = s.port := rfl
@[simp] theorem State.clearFlags_calls (s : State) (v : Byte) : (s.clearFlags v).calls = s.calls := rfl
@[simp] theorem State.clearFlags_busCalls (s : State) (v : Byte) : (s.clearFlags v).busCalls = s.busCalls := rfl
@[simp] theorem State.clearFlags_turn (s : State) (v : Byte) : (s.clearFlags v).turn = s.turn := rfl
@[simp] theorem State.clearFlags_free (s : State) (v : Byte) : (s.clearFlags v).free = s.free := rfl

@[simp] theorem State.drawTurn_cfg (s : State) : s.drawTurn.cfg = s.cfg := rfl
@[simp] theorem State.drawTurn_dev (s : State) : s.drawTurn.dev = s.dev := rfl
@[simp] theorem State.drawTurn_ctl (s : State) : s.drawTurn.ctl = s.ctl := rfl
@[simp] theorem State.drawTurn_air (s : State) : s.drawTurn.air = s.air := rfl
@[simp] theorem State.drawTurn_fault (s : State) : s.drawTurn.fault = s.fault := rfl
@[simp] theorem State.drawTurn_refusal (s : State) : s.drawTurn.refusal = s.refusal := rfl
@[simp] theorem State.drawTurn_bus (s : State) : s.drawTurn.bus = s.bus := rfl
@[simp] theorem State.drawTurn_port (s : State) : s.drawTurn.port = s.port := rfl
@[simp] theorem State.drawTurn_calls (s : State) : s.drawTurn.calls = s.calls := rfl
@[simp] theorem State.drawTurn_busCalls (s : State) : s.drawTurn.busCalls = s.busCalls := rfl
@[simp] theorem State.drawTurn_turn (s : State) : s.drawTurn.turn = Config.freeTurn s.free := rfl
@[simp] theorem State.drawTurn_free (s : State) : s.drawTurn.free = s.free + 1 := rfl

@[simp] theorem State.draw_fst (s : State) : s.draw.1 = Config.freeByte s.free := rfl

@[simp] theorem State.draw_snd (s : State) : s.draw.2 = s.tick := rfl

@[simp] theorem State.valueOf_known (s : State) (v : Byte) : s.valueOf (.known v) = (v, s) := rfl

@[simp] theorem State.valueOf_unknown (s : State) : s.valueOf .unknown = (Config.freeByte s.free, s.tick) := rfl

@[simp] theorem State.nibbleOf_known (s : State) (v : BitVec 4) : s.nibbleOf (.known v) = (v, s) := rfl

@[simp] theorem State.nibbleOf_unknown (s : State) :
    s.nibbleOf .unknown = ((Config.freeByte s.free).setWidth 4, s.tick) := rfl

end Sys2Proof.Machine
end

