-- ==== Sys2Proof/Laws/Registers.lean ====
section
/-! SUPPORT. The register file and the frame buffer: read after write, writes leave the rest alone, and every buffer operation
keeps the canonical form, in which equal contents are equal lists. -/

namespace Sys2Proof.Machine

/-! ## Storage registers -/

@[simp] theorem Regs.get_set_self (g : Regs) (c : Cell 8) (r : StoreReg) : (g.set c r).get r = c := by
  cases r <;> rfl

theorem Regs.get_set_other (g : Regs) (c : Cell 8) {r q : StoreReg} (h : q ≠ r) : (g.set c r).get q = g.get q := by
  cases r <;> cases q <;> first | rfl | exact absurd rfl h

@[simp] theorem State.reg_setReg_self (s : State) (r : StoreReg) (v : Byte) : (s.setReg r v).reg r = .known v :=
  Regs.get_set_self ..

theorem State.reg_setReg_other (s : State) (v : Byte) {r q : StoreReg} (h : q ≠ r) : (s.setReg r v).reg q = s.reg q :=
  Regs.get_set_other _ _ h

@[simp] theorem State.buf_setReg (s : State) (r : StoreReg) (v p : Byte) : (s.setReg r v).buf p = s.buf p := rfl

@[simp] theorem State.reg_setBuf (s : State) (r : StoreReg) (v p : Byte) : (s.setBuf p v).reg r = s.reg r := rfl

theorem StoreReg.name_injective {r q : StoreReg} (h : r.name = q.name) : r = q := by
  cases r <;> cases q <;> first | rfl | exact absurd h (by decide)

/-! ## The frame buffer -/

theorem Memory.read_write_self (m : Memory) (a : Nat) (v : Byte) : (m.write a v).read a = .known v := by
  induction m with
  | nil => simp [Memory.write, Memory.read]
  | cons e m ih =>
    obtain ⟨k, w⟩ := e
    simp only [Memory.write]
    split
    · simp [Memory.read]
    · split
      · simp [Memory.read]
      · rename_i h1 h2
        simp [Memory.read, ih, show k ≠ a by omega]

theorem Memory.read_write_other (m : Memory) {a b : Nat} (v : Byte) (h : b ≠ a) : (m.write a v).read b = m.read b := by
  induction m with
  | nil => simp [Memory.write, Memory.read, Ne.symm h]
  | cons e m ih =>
    obtain ⟨k, w⟩ := e
    simp only [Memory.write]
    split
    · simp [Memory.read, Ne.symm h]
    · split
      · rename_i h1 h2
        subst h2
        simp [Memory.read, Ne.symm h]
      · simp [Memory.read, ih]

theorem Memory.wfFrom_write {m : Memory} {lo a : Nat} (v : Byte) (h : m.wfFrom lo = true) (hlo : lo ≤ a)
    (ha : a < Config.fifoSize) : (m.write a v).wfFrom lo = true := by
  induction m generalizing lo with
  | nil => simp [Memory.write, Memory.wfFrom, hlo, ha]
  | cons e m ih =>
    obtain ⟨k, w⟩ := e
    simp only [Memory.wfFrom, Bool.and_eq_true, decide_eq_true_eq] at h
    simp only [Memory.write]
    split
    · rename_i h1
      simp only [Memory.wfFrom, Bool.and_eq_true, decide_eq_true_eq]
      exact ⟨⟨hlo, ha⟩, ⟨h1, h.1.2⟩, h.2⟩
    · split
      · rename_i h1 h2
        subst h2
        simp only [Memory.wfFrom, Bool.and_eq_true, decide_eq_true_eq]
        exact ⟨⟨hlo, ha⟩, h.2⟩
      · rename_i h1 h2
        simp only [Memory.wfFrom, Bool.and_eq_true, decide_eq_true_eq]
        exact ⟨h.1, ih h.2 (by omega)⟩

/-- A byte written at an 8-bit offset keeps the canonical form. -/
theorem Memory.wf_write {m : Memory} (p v : Byte) (h : m.wf = true) : (m.write p.toNat v).wf = true :=
  Memory.wfFrom_write v h (Nat.zero_le _) p.isLt

/-- A frame written from an offset on keeps the canonical form. -/
theorem Memory.wf_writeBytes {m : Memory} (p : Byte) (vs : List Byte) (h : m.wf = true) :
    (m.writeBytes p vs).wf = true := by
  induction vs generalizing m p with
  | nil => exact h
  | cons v vs ih => exact ih (p + 1) (Memory.wf_write p v h)

theorem State.reset_fifo_wf : State.reset.dev.fifo.wf = true := rfl

theorem Memory.read_below {m : Memory} {lo a : Nat} (h : m.wfFrom lo = true) (ha : a < lo) : m.read a = .unknown := by
  induction m generalizing lo with
  | nil => rfl
  | cons e m ih =>
    obtain ⟨k, w⟩ := e
    simp only [Memory.wfFrom, Bool.and_eq_true, decide_eq_true_eq] at h
    simp only [Memory.read, show k ≠ a by omega, if_false]
    exact ih h.2 (by omega)

/-- Two canonical buffers with the same bytes are the same list. -/
theorem Memory.eq_of_read {m m' : Memory} {lo : Nat} (h : m.wfFrom lo = true) (h' : m'.wfFrom lo = true)
    (hr : ∀ a, m.read a = m'.read a) : m = m' := by
  induction m generalizing m' lo with
  | nil =>
    cases m' with
    | nil => rfl
    | cons e m' => simpa [Memory.read] using hr e.1
  | cons e m ih =>
    obtain ⟨k, w⟩ := e
    cases m' with
    | nil => simpa [Memory.read] using hr k
    | cons e' m' =>
      obtain ⟨k', w'⟩ := e'
      simp only [Memory.wfFrom, Bool.and_eq_true, decide_eq_true_eq] at h h'
      have hk : k = k' := by
        rcases Nat.lt_trichotomy k k' with hlt | heq | hgt
        · have := hr k
          simp [Memory.read, show k' ≠ k by omega, Memory.read_below h'.2 (show k < k' + 1 by omega)] at this
        · exact heq
        · have := hr k'
          simp [Memory.read, show k ≠ k' by omega, Memory.read_below h.2 (show k' < k + 1 by omega)] at this
      subst hk
      have hw : w = w' := by simpa [Memory.read] using hr k
      subst hw
      congr 1
      refine ih h.2 h'.2 (fun a => ?_)
      rcases Nat.lt_or_ge k a with hlt | hge
      · simpa [Memory.read, show k ≠ a by omega] using hr a
      · rw [Memory.read_below h.2 (by omega), Memory.read_below h'.2 (by omega)]

theorem State.buf_setBuf_self (s : State) (p v : Byte) : (s.setBuf p v).buf p = .known v :=
  Memory.read_write_self ..

theorem State.buf_setBuf_other (s : State) {p q : Byte} (v : Byte) (h : q ≠ p) : (s.setBuf p v).buf q = s.buf q :=
  Memory.read_write_other _ _ (fun e => h (BitVec.eq_of_toNat_eq e))

end Sys2Proof.Machine
end

