-- ==== Sys2Proof/Laws/Bus.lean ====
section
/-! SUPPORT. What each shared operation can do, said once: transactions, the mode write, the capture of a frame, requests. -/

namespace Sys2Proof.Machine

/-- The state after a fault (R145). -/
def State.faulted (s : State) (f : Fault) : State := (s.setFault (some f)).setOp .idle

/-- The state after a refusal (R146). -/
def State.refusedFor (s : State) (r : Refusal) : State := (s.setRefusal (some r)).setOp .idle

theorem raise_eq (f : Fault) (s : State) : raise f s = .next (s.faulted f) := rfl

theorem refuse_eq (r : Refusal) (s : State) : refuse r s = .next (s.refusedFor r) := rfl

/-! ## One transaction -/

/-- The read rule of each register (R79 to R97). -/
def readRule : RegName → State → Acc (Byte × State)
  | .fifo => readFifo
  | .opMode => readOpMode
  | .frfMsb => readStored .frfMsb
  | .frfMid => readStored .frfMid
  | .frfLsb => readStored .frfLsb
  | .paConfig => readStored .paConfig
  | .fifoAddrPtr => readStored .fifoAddrPtr
  | .fifoTxBaseAddr => readStored .fifoTxBaseAddr
  | .fifoRxBaseAddr => readStored .fifoRxBaseAddr
  | .fifoRxCurrentAddr => readStored .fifoRxCurrentAddr
  | .irqFlags => readIrqFlags
  | .rxNbBytes => readStored .rxNbBytes
  | .modemConfig1 => readStored .modemConfig1
  | .modemConfig2 => readStored .modemConfig2
  | .preambleMsb => readStored .preambleMsb
  | .preambleLsb => readStored .preambleLsb
  | .payloadLength => readStored .payloadLength
  | .modemConfig3 => readStored .modemConfig3
  | .version => readVersion

/-- The write rule of each register (R98 to R116). -/
def writeRule : RegName → Byte → State → Acc State
  | .fifo => writeFifo
  | .opMode => modeWrite
  | .frfMsb => writeConfig .frfMsb
  | .frfMid => writeConfig .frfMid
  | .frfLsb => writeConfig .frfLsb
  | .paConfig => writeConfig .paConfig
  | .fifoAddrPtr => writePointer
  | .fifoTxBaseAddr => writeConfig .fifoTxBaseAddr
  | .fifoRxBaseAddr => writeConfig .fifoRxBaseAddr
  | .fifoRxCurrentAddr => writeReadOnly
  | .irqFlags => writeIrqFlags
  | .rxNbBytes => writeReadOnly
  | .modemConfig1 => writeConfig .modemConfig1
  | .modemConfig2 => writeConfig .modemConfig2
  | .preambleMsb => writeConfig .preambleMsb
  | .preambleLsb => writeConfig .preambleLsb
  | .payloadLength => writeLength
  | .modemConfig3 => writeConfig .modemConfig3
  | .version => writeReadOnly

theorem exec_ofRead (d : Byte) (r : RegName) (s : State) : exec (Instr.ofRead d r) s = transRead (readRule r) s := by
  cases r <;> rfl

theorem exec_ofWrite (v : Byte) (r : RegName) (s : State) : exec (Instr.ofWrite v r) s = transWrite (writeRule r) v s := by
  cases r <;> rfl

/-- All a read can do: it always answers a next state. -/
theorem transRead_cases (rule : State → Acc (Byte × State)) (s : State) :
    (s.dev.resetLine = .asserted ∧ transRead rule s = .next (s.faulted .txnDuringReset)) ∨
    (s.dev.resetLine = .released ∧ ∃ v t, rule s = .done (v, t) ∧ transRead rule s = .next (t.received v)) ∨
    (s.dev.resetLine = .released ∧ ∃ f, rule s = .fault f ∧ transRead rule s = .next (s.faulted f)) ∨
    (s.dev.resetLine = .released ∧ ∃ r, rule s = .refuse r ∧ transRead rule s = .next (s.refusedFor r)) := by
  unfold transRead
  cases hl : s.dev.resetLine with
  | asserted => exact .inl ⟨rfl, rfl⟩
  | released =>
    right
    cases hr : rule s with
    | done a => exact .inl ⟨rfl, a.1, a.2, rfl, rfl⟩
    | fault f => exact .inr (.inl ⟨rfl, f, rfl, rfl⟩)
    | refuse r => exact .inr (.inr ⟨rfl, r, rfl, rfl⟩)

/-- All the bus can do with a written byte (R77). -/
theorem carryWrite_cases (rule : Byte → State → Acc State) (v : Byte) (s : State) :
    (s.cfg.busReliable = true ∧ carryWrite rule v s = rule v s) ∨
    (s.cfg.busReliable = false ∧ Config.freeFate s.free = .asSent ∧ carryWrite rule v s = rule v s.tick) ∨
    (s.cfg.busReliable = false ∧ Config.freeFate s.free = .altered ∧
      carryWrite rule v s = rule (Config.freeByte (s.free + 1)) s.tick.tick) ∨
    (s.cfg.busReliable = false ∧ Config.freeFate s.free = .lost ∧ carryWrite rule v s = .done s.tick) := by
  unfold carryWrite
  cases s.cfg.busReliable with
  | true => exact .inl ⟨rfl, rfl⟩
  | false =>
    right
    cases hf : Config.freeFate s.free with
    | asSent => exact .inl ⟨rfl, rfl, rfl⟩
    | altered => exact .inr (.inl ⟨rfl, rfl, rfl⟩)
    | lost => exact .inr (.inr ⟨rfl, rfl, rfl⟩)

/-- All a write can do: it always answers a next state. -/
theorem transWrite_cases (rule : Byte → State → Acc State) (v : Byte) (s : State) :
    (s.dev.resetLine = .asserted ∧ transWrite rule v s = .next (s.faulted .txnDuringReset)) ∨
    (s.dev.resetLine = .released ∧ ∃ t, carryWrite rule v s = .done t ∧ transWrite rule v s = .next t.respondDrawn) ∨
    (s.dev.resetLine = .released ∧ ∃ f, carryWrite rule v s = .fault f ∧ transWrite rule v s = .next (s.faulted f)) ∨
    (s.dev.resetLine = .released ∧
      ∃ r, carryWrite rule v s = .refuse r ∧ transWrite rule v s = .next (s.refusedFor r)) := by
  unfold transWrite
  cases hl : s.dev.resetLine with
  | asserted => exact .inl ⟨rfl, rfl⟩
  | released =>
    right
    cases hr : carryWrite rule v s with
    | done a => exact .inl ⟨rfl, a, rfl, rfl⟩
    | fault f => exact .inr (.inl ⟨rfl, f, rfl, rfl⟩)
    | refuse r => exact .inr (.inr ⟨rfl, r, rfl, rfl⟩)

theorem transRead_of_done {rule : State → Acc (Byte × State)} {s t : State} {v : Byte}
    (hl : s.dev.resetLine = .released) (hr : rule s = .done (v, t)) : transRead rule s = .next (t.received v) := by
  simp [transRead, hl, hr]

theorem transWrite_of_done {rule : Byte → State → Acc State} {s t : State} {v : Byte}
    (hl : s.dev.resetLine = .released) (hb : s.cfg.busReliable = true) (hr : rule v s = .done t) :
    transWrite rule v s = .next t.respondDrawn := by
  simp [transWrite, carryWrite, hl, hb, hr]

theorem State.received_reliable {s : State} (h : s.cfg.busReliable = true) (v : Byte) : s.received v = s.respond v := by
  simp [State.received, h]

theorem State.received_unreliable {s : State} (h : s.cfg.busReliable = false) (v : Byte) :
    s.received v = s.tick.respond (Config.freeByte s.free) := by
  simp [State.received, h]

/-- What a read result leaves alone: all but the response bytes and the draw counter, which does not fall. -/
theorem State.received_frame (s : State) (v : Byte) :
    s.received v = (s.setBus (s.received v).bus).setFree (s.received v).free ∧ s.free ≤ (s.received v).free := by
  unfold State.received
  split
  · exact ⟨rfl, Nat.le_succ _⟩
  · exact ⟨rfl, by simp; omega⟩

/-- The value of a cell costs at most draws. -/
theorem State.valueOf_frame (s : State) (c : Cell 8) : (s.valueOf c).2 = s.setFree (s.valueOf c).2.free ∧
    s.free ≤ (s.valueOf c).2.free := by
  cases c with
  | known v => exact ⟨rfl, Nat.le_refl _⟩
  | unknown => exact ⟨rfl, Nat.le_succ _⟩

/-- A FIFO access goes through exactly in Standby or ReceiveContinuous with the pointer known (R79, R98). -/
theorem fifoAccess_done_iff (s : State) (p : Byte) : fifoAccess s = .done p ↔
    (s.dev.mode = .standby ∨ s.dev.mode = .receiveContinuous) ∧ s.reg .fifoAddrPtr = .known p := by
  unfold fifoAccess
  cases s.dev.mode <;> cases s.reg .fifoAddrPtr <;> simp

/-! ## The mode write -/

/-- A captured frame has the asked length, and taking it only draws (R122). -/
theorem captureFrame_frame (n : Nat) (b : Byte) (s : State) :
    (captureFrame n b s).1.length = n ∧ (captureFrame n b s).2 = s.setFree (captureFrame n b s).2.free ∧
      s.free ≤ (captureFrame n b s).2.free := by
  induction n generalizing b s with
  | zero => exact ⟨rfl, rfl, Nat.le_refl _⟩
  | succ n ih =>
    have hv := State.valueOf_frame s (s.buf b)
    obtain ⟨h1, h2, h3⟩ := ih (b + 1) (s.valueOf (s.buf b)).2
    have e2 : (captureFrame (n + 1) b s).2 = (captureFrame n (b + 1) (s.valueOf (s.buf b)).2).2 := rfl
    have e1 : (captureFrame (n + 1) b s).1 =
        (s.valueOf (s.buf b)).1 :: (captureFrame n (b + 1) (s.valueOf (s.buf b)).2).1 := rfl
    refine ⟨by rw [e1, List.length_cons, h1], ?_, by rw [e2]; exact Nat.le_trans hv.2 h3⟩
    rw [e2]
    generalize hu : (captureFrame n (b + 1) (s.valueOf (s.buf b)).2).2 = u at h2 ⊢
    rw [h2, hv.1]
    rfl

/-- What an abort can do (R124). -/
theorem txAbort_cases (s : State) : (s.dev.txJob = none ∧ txAbort s = s) ∨
    ∃ f e, s.dev.txJob = some f ∧ (e = [] ∨ ∃ j, e = [Emission.part (f.take j)]) ∧
      txAbort s = ((s.setAir (s.air ++ e)).setTxJob none).tick := by
  unfold txAbort
  cases hj : s.dev.txJob with
  | none => exact .inl ⟨rfl, rfl⟩
  | some f =>
    refine .inr ⟨f, _, rfl, ?_, rfl⟩
    cases Config.freeEmission s.free with
    | none => exact .inl rfl
    | some j => exact .inr ⟨j, rfl⟩

/-- What a start can do (R122). -/
theorem txStart_cases (s : State) :
    (s.reg .payloadLength = .unknown ∧ txStart s = .fault .lengthUnknown) ∨
    (∃ n, s.reg .payloadLength = .known n ∧ s.reg .fifoTxBaseAddr = .unknown ∧ txStart s = .fault .txBaseUnknown) ∨
    ∃ n b, s.reg .payloadLength = .known n ∧ s.reg .fifoTxBaseAddr = .known b ∧
      txStart s = .done ((captureFrame n.toNat b s).2.setTxJob (some (captureFrame n.toNat b s).1)) := by
  unfold txStart
  cases hn : s.reg .payloadLength with
  | unknown => exact .inl ⟨rfl, rfl⟩
  | known n =>
    right
    cases hb : s.reg .fifoTxBaseAddr with
    | unknown => exact .inl ⟨n, rfl, rfl, rfl⟩
    | known b => exact .inr ⟨n, b, rfl, rfl, rfl⟩

/-- What an OP_MODE write that goes through has passed, and what it then does (R120). -/
theorem modeWrite_done {v : Byte} {s t : State} (h : modeWrite v s = .done t) :
    ∃ m, modeOfCode s.cfg.codes (modeField v) = some m ∧ (lrField v = s.dev.lr ∨ s.dev.mode = .sleep) ∧
      (modeActive m = true → lrField v = true) ∧ modeAllowed s.dev.mode m = true ∧
      modeEffect s.dev.mode m (s.setMode (lrField v) (midField v) m) = .done t := by
  unfold modeWrite at h
  cases hm : modeOfCode s.cfg.codes (modeField v) with
  | none => simp [hm] at h
  | some m =>
    simp only [hm] at h
    split at h
    · cases h
    · rename_i h1
      split at h
      · cases h
      · rename_i h2
        split at h
        · cases h
        · rename_i h3
          refine ⟨m, rfl, ?_, ?_, by simpa using h3, h⟩
          · by_cases hl : lrField v = s.dev.lr
            · exact .inl hl
            · exact .inr (Classical.byContradiction fun hs => h1 ⟨hl, hs⟩)
          · intro ha
            cases hlr : lrField v with
            | true => rfl
            | false => exact absurd ⟨ha, hlr⟩ h2

/-- The mode effect, by what it starts or ends (R120). -/
theorem modeEffect_done {o m : Mode} {s t : State} (h : modeEffect o m s = .done t) :
    (o = .transmit ∧ m ≠ .transmit ∧ t = txAbort s) ∨ (o ≠ .transmit ∧ m = .transmit ∧ txStart s = .done t) ∨
      ((o = .transmit ↔ m = .transmit) ∧ t = s) := by
  unfold modeEffect at h
  split at h
  · rename_i h1
    cases h
    exact .inl ⟨h1.1, h1.2, rfl⟩
  · rename_i h1
    split at h
    · rename_i h2
      exact .inr (.inl ⟨h2.1, h2.2, h⟩)
    · rename_i h2
      cases h
      refine .inr (.inr ⟨?_, rfl⟩)
      constructor
      · intro ho
        exact Classical.byContradiction fun hm => h1 ⟨ho, hm⟩
      · intro hm
        exact Classical.byContradiction fun ho => h2 ⟨ho, hm⟩

/-! ## Requests -/

/-- All an offered request can do: it is held, faulted, refused or started. -/
theorem offer_cases (req : Request) (bad : Option Refusal) (s : State) :
    (s.ctl.op ≠ .idle ∧ offer req bad s = .next (s.hold req)) ∨
    (s.ctl.op = .idle ∧ takenIn req s.ctl.life = false ∧ offer req bad s = .next (s.faulted .requestInWrongState)) ∨
    (s.ctl.op = .idle ∧ takenIn req s.ctl.life = true ∧ ∃ r, bad = some r ∧ offer req bad s = .next (s.refusedFor r)) ∨
    (s.ctl.op = .idle ∧ takenIn req s.ctl.life = true ∧ bad = none ∧ offer req bad s = .next (s.start req)) := by
  unfold offer
  cases s.ctl.op with
  | running _ _ _ _ => exact .inl ⟨by simp, rfl⟩
  | idle =>
    right
    cases takenIn req s.ctl.life with
    | false => exact .inl ⟨rfl, rfl, rfl⟩
    | true =>
      right
      cases bad with
      | some r => exact .inl ⟨rfl, rfl, r, rfl, rfl⟩
      | none => exact .inr ⟨rfl, rfl, rfl, rfl⟩

/-- The argument check of a request (R149 (3)). -/
def badArgument : Request → Params → Option Refusal
  | .reset, _ => none
  | .init, p => buildCheck p
  | .setMode _, _ => none
  | .send _, _ => none
  | .tryReceive n, _ => receiveCheck n

/-- Every port request is an offer. -/
theorem exec_toInstr (req : Request) (s : State) : exec req.toInstr s = offer req (badArgument req s.cfg) s := by
  cases req <;> rfl

/-- Every codec call leaves a result and nothing else. -/
theorem exec_codecCall (c : CodecCall) (n : Nat) (s : State) : ∃ r, exec (c.toInstr n) s = .next (s.setResult (some r)) := by
  cases c <;> exact ⟨_, rfl⟩

/-- What `andThen` can do with a transaction's answer. -/
theorem andThen_next {t : State} {k : State → State} :
    andThen (.next t) k = .next (if t.stopped then t else k t) := by
  cases ht : t.stopped <;> simp [andThen, ht]

end Sys2Proof.Machine
end

