-- ==== Sys2Proof/Laws/Codec.lean ====
section
/-! SUPPORT. Decimal strings: digits, the number they denote, and the strings that `dec` writes. -/

namespace Sys2Proof.Machine

theorem isDigit_dig (d : Nat) : isDigit (dig d) = true := by
  have h : d % 10 < 10 := Nat.mod_lt _ (by decide)
  unfold dig isDigit
  generalize d % 10 = e at h
  simp
  omega

theorem digitVal_dig (d : Nat) : digitVal (dig d) = d % 10 := by
  have h : d % 10 < 10 := Nat.mod_lt _ (by decide)
  unfold dig digitVal
  generalize d % 10 = e at h
  simp
  omega

/-- The number of a digit string with one more digit. -/
theorem natOfDigits_concat (ds : List Byte) (c : Byte) : natOfDigits (ds ++ [c]) = natOfDigits ds * 10 + digitVal c := by
  simp [natOfDigits]

theorem natOfDigits_foldl (ds : List Byte) (a : Nat) :
    ds.foldl (fun acc c => acc * 10 + digitVal c) a = a * 10 ^ ds.length + natOfDigits ds := by
  induction ds generalizing a with
  | nil => simp [natOfDigits]
  | cons c ds ih =>
    have h0 := ih (0 * 10 + digitVal c)
    simp only [natOfDigits, List.foldl_cons, List.length_cons] at *
    rw [ih, h0, pow_succ]
    ring

/-- The number of two digit strings side by side. -/
theorem natOfDigits_append (ds es : List Byte) :
    natOfDigits (ds ++ es) = natOfDigits ds * 10 ^ es.length + natOfDigits es := by
  rw [natOfDigits, List.foldl_append, natOfDigits_foldl]
  rfl

/-- Everything `decFuel` says with enough fuel: digits, the number, no leading zero, not empty. -/
theorem decFuel_spec (fuel x : Nat) (h : x < fuel) : (decFuel fuel x).all isDigit = true ∧
    natOfDigits (decFuel fuel x) = x ∧ decFuel fuel x ≠ [] ∧
    ((decFuel fuel x).head? = some 0x30#8 → x = 0) := by
  induction fuel generalizing x with
  | zero => omega
  | succ fuel ih =>
    unfold decFuel
    split
    · rename_i hx
      refine ⟨by simp [isDigit_dig], ?_, by simp, ?_⟩
      · simp [natOfDigits, digitVal_dig]
        omega
      · intro hh
        have := congrArg BitVec.toNat (Option.some.inj hh)
        simp [dig] at this
        omega
    · rename_i hx
      obtain ⟨h1, h2, h3, h4⟩ := ih (x / 10) (by omega)
      refine ⟨by simp [h1, isDigit_dig], ?_, by simp, ?_⟩
      · rw [natOfDigits_concat, h2, digitVal_dig]
        omega
      · intro hh
        rw [List.head?_append_of_ne_nil _ h3] at hh
        have := h4 hh
        omega

/-- The decimal string of `x` denotes `x` and is made of digits (R135). -/
theorem dec_spec (x : Nat) : (dec x).all isDigit = true ∧ natOfDigits (dec x) = x ∧ dec x ≠ [] ∧
    ((dec x).head? = some 0x30#8 → dec x = [0x30#8]) := by
  obtain ⟨h1, h2, h3, h4⟩ := decFuel_spec (x + 1) x (Nat.lt_succ_self x)
  refine ⟨h1, h2, h3, fun h => ?_⟩
  have := h4 h
  subst this
  rfl

end Sys2Proof.Machine
end

