-- ==== Sys2Proof/Laws/Decoder.lean ====
section
/-! SUPPORT. The decoder's parts: the fields of byte 0, and finding a register by its address. -/

namespace Sys2Proof

theorem directionOf_byte0 (w : Bool) (a : RegAddr) : directionOf (byte0 w a) = w := by
  revert w a
  decide

theorem addressOf_byte0 (w : Bool) (a : RegAddr) : addressOf (byte0 w a) = a := by
  revert w a
  decide

theorem byte0_fields (b : Byte) : byte0 (directionOf b) (addressOf b) = b := by
  revert b
  decide

theorem RegName.mem_all (r : RegName) : r ∈ RegName.all := by cases r <;> decide

/-- The Bool check of the map says that it is injective (R60). -/
theorem RegMap.injective_of_wf {m : RegMap} (h : m.wf = true) {r q : RegName} (e : m.addr r = m.addr q) : r = q := by
  have hn : (RegName.all.map m.addr).Nodup := by simpa [RegMap.wf] using h
  exact List.inj_on_of_nodup_map hn (RegName.mem_all r) (RegName.mem_all q) e

theorem RegMap.find_sound {m : RegMap} {a : RegAddr} {r : RegName} (h : m.find a = some r) : m.addr r = a := by
  have := List.find?_some h
  simpa using this

theorem RegMap.find_addr {m : RegMap} (h : m.wf = true) (r : RegName) : m.find (m.addr r) = some r := by
  cases hf : m.find (m.addr r) with
  | some q => rw [RegMap.injective_of_wf h (RegMap.find_sound hf)]
  | none =>
    have := List.find?_eq_none.mp hf r (RegName.mem_all r)
    simp at this

theorem RegMap.find_none {m : RegMap} {a : RegAddr} (h : ∀ r, m.addr r ≠ a) : m.find a = none := by
  cases hf : m.find a with
  | none => rfl
  | some r => exact absurd (RegMap.find_sound hf) (h r)

theorem Instr.transaction_ofTransaction (w : Bool) (r : RegName) (b : Byte) :
    (Instr.ofTransaction w r b).transaction? = some (w, r, b) := by
  cases w <;> cases r <;> rfl

/-- The bytes of a register's address decode to an instruction, whatever the map (R66). -/
theorem decode_byte0_addr (m : RegMap) (r : RegName) (w : Bool) (b1 : Byte) (rest : List Byte) :
    ∃ i, decode m (byte0 w (m.addr r) :: b1 :: rest) = .instr i rest := by
  simp only [decode, addressOf_byte0]
  cases h : m.find (m.addr r) with
  | some q => exact ⟨_, rfl⟩
  | none => exact absurd (List.find?_eq_none.mp h r (RegName.mem_all r)) (by simp)

theorem RegMap.default_wf : RegMap.default.wf = true := by decide

theorem Params.default_wf : Params.default.wf = true := by decide

end Sys2Proof
end

