-- ==== Sys2Proof/Laws/Operands.lean ====
section
/-! SUPPORT. The flag masks and the operand forms: bits of IRQ_FLAGS, fields of an OP_MODE byte, codes of modes. -/

namespace Sys2Proof.Machine

/-! ## Flags -/

/-- A flag's mask has its bit and no other (R62). -/
theorem getLsbD_bitMask (i j : BitPos) : (bitMask i).getLsbD j.val = decide (j = i) := by
  revert i j
  unfold BitPos at *
  decide +revert

/-- Putting a bit sets that bit and no other. -/
theorem getLsbD_putBit (v : Byte) (i j : BitPos) (b : Bool) :
    (putBit v i b).getLsbD j.val = if j = i then b else v.getLsbD j.val := by
  have hj : j.val < 8 := j.isLt
  cases b <;>
    simp only [putBit, if_true, if_false, Bool.false_eq_true, BitVec.getLsbD_or, BitVec.getLsbD_and, BitVec.getLsbD_not,
      getLsbD_bitMask] <;>
    by_cases h : j = i <;> simp [h, hj]

/-- Testing a flag's mask looks at its bit (R62). -/
theorem testMask_bitMask (v : Byte) (i : BitPos) : testMask v (bitMask i) = v.getLsbD i.val := by
  revert v i
  unfold BitPos at *
  decide +revert

/-- A written 1 clears, a written 0 keeps (R108). -/
theorem clearedBy_eq (v : Byte) (i : BitPos) (flag : Bool) :
    clearedBy v i flag = if v.getLsbD i.val = true then false else flag := by
  unfold clearedBy
  cases v.getLsbD i.val <;> simp

theorem irqByte_rxDone (p : Params) (other : Byte) (d : Dev) :
    (irqByte p other d).getLsbD p.rxDoneBit.val = d.rxDone := by
  rw [irqByte, getLsbD_putBit, if_pos rfl]

theorem irqByte_txDone {p : Params} (other : Byte) (d : Dev) (h : p.txDoneBit ≠ p.rxDoneBit) :
    (irqByte p other d).getLsbD p.txDoneBit.val = d.txDone := by
  rw [irqByte, getLsbD_putBit, if_neg h, getLsbD_putBit, if_pos rfl]

theorem irqByte_other {p : Params} (other : Byte) (d : Dev) {i : BitPos} (ht : i ≠ p.txDoneBit) (hr : i ≠ p.rxDoneBit) :
    (irqByte p other d).getLsbD i.val = other.getLsbD i.val := by
  rw [irqByte, getLsbD_putBit, if_neg hr, getLsbD_putBit, if_neg ht]

/-! ## The frequency word -/

theorem frfFits_iff {f : Nat} : frfFits f = true ↔ frfNumber f < 2 ^ 24 := by
  rw [frfFits, beq_iff_eq, Nat.div_eq_zero_iff]
  simp

/-- A configuration is built exactly when its frequency word fits 24 bits (R63). -/
theorem buildCheck_eq_none {p : Params} : buildCheck p = none ↔ frfNumber p.freqHz < 2 ^ 24 := by
  rw [← frfFits_iff, buildCheck]
  cases frfFits p.freqHz <;> simp

/-- All that the build check can answer (R63). -/
theorem buildCheck_cases (p : Params) : (frfNumber p.freqHz < 2 ^ 24 ∧ buildCheck p = none) ∨
    (2 ^ 24 ≤ frfNumber p.freqHz ∧ buildCheck p = some .frequencyOutOfRange) := by
  cases h : frfFits p.freqHz with
  | true => exact .inl ⟨frfFits_iff.mp h, by rw [buildCheck, h]; rfl⟩
  | false =>
    refine .inr ⟨Nat.le_of_not_lt fun hl => ?_, by rw [buildCheck, h]; rfl⟩
    rw [frfFits_iff.mpr hl] at h
    cases h

/-! ## OP_MODE bytes -/

/-- Different modes have different codes (R19). -/
theorem ModeCodes.code_injective {c : ModeCodes} (h : c.wf = true) {m m' : Mode} (e : c.code m = c.code m') : m = m' := by
  have hn : [c.sleep, c.standby, c.transmit, c.receiveContinuous].Nodup := by simpa [ModeCodes.wf] using h
  simp only [List.nodup_cons, List.mem_cons, List.not_mem_nil, or_false, not_or] at hn
  cases m <;> cases m' <;> first | rfl | (simp only [ModeCodes.code] at e; simp_all)

/-- A mode is found by its code. -/
theorem modeOfCode_code {c : ModeCodes} (h : c.wf = true) (m : Mode) : modeOfCode c (c.code m) = some m := by
  have hi : ∀ m', (c.code m' == c.code m) = decide (m' = m) := fun m' => by
    by_cases e : m' = m
    · simp [e]
    · simpa [e] using fun h' => e (ModeCodes.code_injective h h')
  simp only [modeOfCode, hi]
  cases m <;> decide

/-- A reserved code is no mode's (R67). -/
theorem modeOfCode_none {c : ModeCodes} {b : BitVec 3} (h : ∀ m, c.code m ≠ b) : modeOfCode c b = none := by
  simp [modeOfCode, h]

/-- The fields of the byte the controller writes (R61). -/
theorem opModeByte_fields (c : ModeCodes) (m : Mode) :
    modeField (opModeByte c m) = c.code m ∧ midField (opModeByte c m) = 0#4 ∧ lrField (opModeByte c m) = true := by
  unfold opModeByte
  generalize c.code m = b
  revert b
  decide

end Sys2Proof.Machine
end

