-- ==== Sys2Proof/Laws/PerInstr.lean ====
section
/-! SUPPORT. A family of statements about every instruction as syntax, one lemma per constructor. -/

namespace Sys2Proof.Laws.FirstByte

/-- The direction bit and the address of an instruction's first byte are those of its register and direction, and byte 1 is
its operand (R55 to R57); a host request has no bytes (R73). -/
def Statement (i : Instr) : Prop :=
  ∀ (m : RegMap) (b0 b1 : Byte), encodeInstr m i = some (b0, b1) →
    ∃ w r, i.transaction? = some (w, r, b1) ∧ directionOf b0 = w ∧ addressOf b0 = m.addr r

theorem of_transaction {i : Instr} {w : Bool} {r : RegName} {v : Byte} (h : i.transaction? = some (w, r, v)) :
    Statement i := by
  intro m b0 b1 he
  simp only [encodeInstr, h, Option.some.injEq, Prod.mk.injEq] at he
  obtain ⟨rfl, rfl⟩ := he
  exact ⟨w, r, h, directionOf_byte0 w _, addressOf_byte0 w _⟩

theorem of_request {i : Instr} (h : i.transaction? = none) : Statement i := by
  intro m b0 b1 he
  simp [encodeInstr, h] at he

theorem rdFifo (d : Byte) : Statement (.rdFifo d) := of_transaction rfl

theorem rdOpMode (d : Byte) : Statement (.rdOpMode d) := of_transaction rfl

theorem rdFrfMsb (d : Byte) : Statement (.rdFrfMsb d) := of_transaction rfl

theorem rdFrfMid (d : Byte) : Statement (.rdFrfMid d) := of_transaction rfl

theorem rdFrfLsb (d : Byte) : Statement (.rdFrfLsb d) := of_transaction rfl

theorem rdPaConfig (d : Byte) : Statement (.rdPaConfig d) := of_transaction rfl

theorem rdFifoAddrPtr (d : Byte) : Statement (.rdFifoAddrPtr d) := of_transaction rfl

theorem rdFifoTxBaseAddr (d : Byte) : Statement (.rdFifoTxBaseAddr d) := of_transaction rfl

theorem rdFifoRxBaseAddr (d : Byte) : Statement (.rdFifoRxBaseAddr d) := of_transaction rfl

theorem rdFifoRxCurrentAddr (d : Byte) : Statement (.rdFifoRxCurrentAddr d) := of_transaction rfl

theorem rdIrqFlags (d : Byte) : Statement (.rdIrqFlags d) := of_transaction rfl

theorem rdRxNbBytes (d : Byte) : Statement (.rdRxNbBytes d) := of_transaction rfl

theorem rdModemConfig1 (d : Byte) : Statement (.rdModemConfig1 d) := of_transaction rfl

theorem rdModemConfig2 (d : Byte) : Statement (.rdModemConfig2 d) := of_transaction rfl

theorem rdPreambleMsb (d : Byte) : Statement (.rdPreambleMsb d) := of_transaction rfl

theorem rdPreambleLsb (d : Byte) : Statement (.rdPreambleLsb d) := of_transaction rfl

theorem rdPayloadLength (d : Byte) : Statement (.rdPayloadLength d) := of_transaction rfl

theorem rdModemConfig3 (d : Byte) : Statement (.rdModemConfig3 d) := of_transaction rfl

theorem rdVersion (d : Byte) : Statement (.rdVersion d) := of_transaction rfl

theorem wrFifo (v : Byte) : Statement (.wrFifo v) := of_transaction rfl

theorem wrOpMode (v : Byte) : Statement (.wrOpMode v) := of_transaction rfl

theorem wrFrfMsb (v : Byte) : Statement (.wrFrfMsb v) := of_transaction rfl

theorem wrFrfMid (v : Byte) : Statement (.wrFrfMid v) := of_transaction rfl

theorem wrFrfLsb (v : Byte) : Statement (.wrFrfLsb v) := of_transaction rfl

theorem wrPaConfig (v : Byte) : Statement (.wrPaConfig v) := of_transaction rfl

theorem wrFifoAddrPtr (v : Byte) : Statement (.wrFifoAddrPtr v) := of_transaction rfl

theorem wrFifoTxBaseAddr (v : Byte) : Statement (.wrFifoTxBaseAddr v) := of_transaction rfl

theorem wrFifoRxBaseAddr (v : Byte) : Statement (.wrFifoRxBaseAddr v) := of_transaction rfl

theorem wrFifoRxCurrentAddr (v : Byte) : Statement (.wrFifoRxCurrentAddr v) := of_transaction rfl

theorem wrIrqFlags (v : Byte) : Statement (.wrIrqFlags v) := of_transaction rfl

theorem wrRxNbBytes (v : Byte) : Statement (.wrRxNbBytes v) := of_transaction rfl

theorem wrModemConfig1 (v : Byte) : Statement (.wrModemConfig1 v) := of_transaction rfl

theorem wrModemConfig2 (v : Byte) : Statement (.wrModemConfig2 v) := of_transaction rfl

theorem wrPreambleMsb (v : Byte) : Statement (.wrPreambleMsb v) := of_transaction rfl

theorem wrPreambleLsb (v : Byte) : Statement (.wrPreambleLsb v) := of_transaction rfl

theorem wrPayloadLength (v : Byte) : Statement (.wrPayloadLength v) := of_transaction rfl

theorem wrModemConfig3 (v : Byte) : Statement (.wrModemConfig3 v) := of_transaction rfl

theorem wrVersion (v : Byte) : Statement (.wrVersion v) := of_transaction rfl

theorem reset : Statement .reset := of_request rfl

theorem init : Statement .init := of_request rfl

theorem setMode (m : Mode) : Statement (.setMode m) := of_request rfl

theorem send (bytes : List Byte) : Statement (.send bytes) := of_request rfl

theorem tryReceive (n : Nat) : Statement (.tryReceive n) := of_request rfl

theorem encode (rec : TelemetryRecord) (n : Nat) : Statement (.encode rec n) := of_request rfl

theorem decode (bytes : List Byte) : Statement (.decode bytes) := of_request rfl

end Sys2Proof.Laws.FirstByte
end

