-- ==== Sys2Proof/Laws/Step.lean ====
section
/-! SUPPORT. What one step can do: every instruction answers a next state, and a step that goes on is the move of the agent in
turn, in a node that is neither stopped nor refused at build. -/

namespace Sys2Proof.Machine

/-- Every transaction is its register's rule between the checks of the bus. -/
theorem exec_transaction {i : Instr} {w : Bool} {r : RegName} {b : Byte} (h : i.transaction? = some (w, r, b)) (s : State) :
    exec i s = if w then transWrite (writeRule r) b s else transRead (readRule r) s := by
  cases i <;> first | cases h; rfl | cases h

/-- What is no transaction is a request at the port or a codec call (R73). -/
theorem request_or_call {i : Instr} (h : i.transaction? = none) :
    (∃ req : Request, i = req.toInstr) ∨ ∃ (c : CodecCall) (n : Nat), i = c.toInstr n := by
  cases i with
  | reset => exact .inl ⟨.reset, rfl⟩
  | init => exact .inl ⟨.init, rfl⟩
  | setMode m => exact .inl ⟨.setMode m, rfl⟩
  | send bytes => exact .inl ⟨.send bytes, rfl⟩
  | tryReceive n => exact .inl ⟨.tryReceive n, rfl⟩
  | encode rec n => exact .inr ⟨.encode rec (some n), n, rfl⟩
  | decode bytes => exact .inr ⟨.decode bytes, 0, rfl⟩
  | _ => cases h

theorem transRead_next (rule : State → Acc (Byte × State)) (s : State) : ∃ t, transRead rule s = .next t := by
  rcases transRead_cases rule s with h | ⟨_, _, _, _, h⟩ | ⟨_, _, _, h⟩ | ⟨_, _, _, h⟩
  · exact ⟨_, h.2⟩
  all_goals exact ⟨_, h⟩

theorem transWrite_next (rule : Byte → State → Acc State) (v : Byte) (s : State) : ∃ t, transWrite rule v s = .next t := by
  rcases transWrite_cases rule v s with h | ⟨_, _, _, h⟩ | ⟨_, _, _, h⟩ | ⟨_, _, _, h⟩
  · exact ⟨_, h.2⟩
  all_goals exact ⟨_, h⟩

theorem offer_next (req : Request) (bad : Option Refusal) (s : State) : ∃ t, offer req bad s = .next t := by
  rcases offer_cases req bad s with h | h | ⟨_, _, _, _, h⟩ | h
  · exact ⟨_, h.2⟩
  · exact ⟨_, h.2.2⟩
  · exact ⟨_, h⟩
  · exact ⟨_, h.2.2.2⟩

/-- No meaning ends a run by itself: faults and refusals are marks in a next state (R145, R146). -/
theorem exec_next (i : Instr) (s : State) : ∃ t, exec i s = .next t := by
  cases h : i.transaction? with
  | some x =>
    rw [exec_transaction h]
    split
    · exact transWrite_next ..
    · exact transRead_next ..
  | none =>
    rcases request_or_call h with ⟨req, rfl⟩ | ⟨c, n, rfl⟩
    · rw [exec_toInstr]
      exact offer_next ..
    · exact (exec_codecCall c n s).imp' _ fun _ h => h

/-- A codec call the host makes has a bound of the spec, if it gives one (R137). -/
theorem offeredCalls_ok {c d : CodecCall} (h : d ∈ offeredCalls c) : d = c ∧ d.boundOk = true := by
  unfold offeredCalls at h
  split at h
  · rename_i hc
    cases List.mem_singleton.mp h
    exact ⟨rfl, hc⟩
  · cases h

/-- What a drawn turn leaves alone: all but the turn and the draw counter (log 12). -/
theorem State.drawTurn_eq (s : State) : s.drawTurn = (s.setTurn (Config.freeTurn s.free)).setFree (s.free + 1) := rfl

/-- The step of a node that is neither stopped nor refused at build is the move of the agent in turn. -/
theorem step_running {s : State} (hf : s.fault = none) (hr : s.refusal = none) (hb : frfNumber s.cfg.freqHz < 2 ^ 24) :
    step s = withNextTurn (agentMove s.turn s) := by
  simp only [step, nodeStep, hf, hr, buildCheck_eq_none.mpr hb]

/-- All that a step that goes on says. -/
theorem step_next {s t : State} (h : step s = .next t) : s.fault = none ∧ s.refusal = none ∧
    frfNumber s.cfg.freqHz < 2 ^ 24 ∧ ∃ u, agentMove s.turn s = .next u ∧ t = u.drawTurn := by
  cases hf : s.fault with
  | some f => simp [step, nodeStep, hf] at h
  | none =>
    cases hr : s.refusal with
    | some r => simp [step, nodeStep, hf, hr] at h
    | none =>
      cases hb : buildCheck s.cfg with
      | some r => simp [step, nodeStep, hf, hr, hb] at h
      | none =>
        rw [step_running hf hr (buildCheck_eq_none.mp hb)] at h
        refine ⟨rfl, rfl, buildCheck_eq_none.mp hb, ?_⟩
        cases ha : agentMove s.turn s with
        | next u =>
          rw [ha] at h
          cases h
          exact ⟨u, rfl, rfl⟩
        | fault f => simp [ha, withNextTurn] at h
        | refused r => simp [ha, withNextTurn] at h

end Sys2Proof.Machine
end

