-- ==== Sys2Proof/Laws/Sequencer.lean ====
section
/-! SUPPORT. Running the controller: composing turns, and what a captured or delivered frame holds. -/

namespace Sys2Proof.Machine

theorem runController_succ {k : Nat} {s t : State} (h : controllerTurn s = .next t) :
    runController (k + 1) s = runController k t := by
  simp [runController, h]

theorem runController_add {j k : Nat} {s t : State} (h : runController j s = .next t) :
    runController (j + k) s = runController k t := by
  induction j generalizing s with
  | zero =>
    cases h
    rw [Nat.zero_add]
  | succ j ih =>
    rw [Nat.succ_add]
    simp only [runController] at h ⊢
    cases hc : controllerTurn s with
    | next u =>
      simp only [hc] at h ⊢
      exact ih h
    | fault f => simp [hc] at h
    | refused r => simp [hc] at h

/-- The bytes of a captured frame: the buffer's where known, draws elsewhere (R122). -/
theorem captureFrame_bytes (n : Nat) (b : Byte) (s : State) :
    (∀ i x, i < n → s.buf (b + BitVec.ofNat 8 i) = .known x → (captureFrame n b s).1[i]? = some x) ∧
    ∀ i, i < n → s.buf (b + BitVec.ofNat 8 i) = .unknown →
      ∃ k, s.free ≤ k ∧ (captureFrame n b s).1[i]? = some (Config.freeByte k) := by
  induction n generalizing b s with
  | zero => exact ⟨fun i x h => absurd h (by omega), fun i h => absurd h (by omega)⟩
  | succ n ih =>
    have hv := State.valueOf_frame s (s.buf b)
    obtain ⟨i1, i2⟩ := ih (b + 1) (s.valueOf (s.buf b)).2
    have hbuf : ∀ p, (s.valueOf (s.buf b)).2.buf p = s.buf p := fun p => by rw [hv.1]; rfl
    have e1 : (captureFrame (n + 1) b s).1 =
        (s.valueOf (s.buf b)).1 :: (captureFrame n (b + 1) (s.valueOf (s.buf b)).2).1 := rfl
    have ep : ∀ i : Nat, b + BitVec.ofNat 8 (i + 1) = b + 1 + BitVec.ofNat 8 i := fun i => by
      apply BitVec.eq_of_toNat_eq
      simp
      omega
    rw [e1]
    constructor
    · intro i x hi hx
      cases i with
      | zero =>
        simp only [BitVec.add_zero] at hx
        simp [hx, State.valueOf]
      | succ i =>
        rw [ep] at hx
        simpa using i1 i x (by omega) (by rw [hbuf]; exact hx)
    · intro i hi hx
      cases i with
      | zero =>
        simp only [BitVec.add_zero] at hx
        exact ⟨s.free, Nat.le_refl _, by simp [hx, State.valueOf, State.draw]⟩
      | succ i =>
        rw [ep] at hx
        obtain ⟨k, hk, h⟩ := i2 i (by omega) (by rw [hbuf]; exact hx)
        exact ⟨k, Nat.le_trans hv.2 hk, by simpa using h⟩

/-- Bytes outside a delivered frame stay (R125). -/
theorem Memory.read_writeBytes_other (m : Memory) (p : Byte) (vs : List Byte) {q : Byte}
    (h : ∀ i, i < vs.length → q ≠ p + BitVec.ofNat 8 i) : (m.writeBytes p vs).read q.toNat = m.read q.toNat := by
  induction vs generalizing m p with
  | nil => rfl
  | cons v vs ih =>
    have ep : ∀ i : Nat, p + 1 + BitVec.ofNat 8 i = p + BitVec.ofNat 8 (i + 1) := fun i => by
      apply BitVec.eq_of_toNat_eq
      simp
      omega
    have h0 : q ≠ p := by simpa using h 0 (by simp)
    rw [Memory.writeBytes, ih (m.write p.toNat v) (p + 1)
        (fun i hi => by rw [ep]; exact h (i + 1) (by simpa using hi)),
      Memory.read_write_other _ _ (fun e => h0 (BitVec.eq_of_toNat_eq e))]

/-- A delivered frame of at most 256 bytes is found from its start on (R125). -/
theorem Memory.read_writeBytes_self (m : Memory) (p : Byte) (vs : List Byte) (h : vs.length ≤ 256) {i : Nat} {x : Byte}
    (hx : vs[i]? = some x) : (m.writeBytes p vs).read (p + BitVec.ofNat 8 i).toNat = .known x := by
  induction vs generalizing m p i with
  | nil => simp at hx
  | cons v vs ih =>
    have hl : vs.length < 256 := by simpa using h
    cases i with
    | zero =>
      have e : v = x := by simpa using hx
      subst e
      simp only [BitVec.add_zero]
      rw [Memory.writeBytes, Memory.read_writeBytes_other, Memory.read_write_self]
      intro j hj e
      have := congrArg BitVec.toNat e
      have hp := p.isLt
      simp at this
      omega
    | succ i =>
      have ep : p + BitVec.ofNat 8 (i + 1) = p + 1 + BitVec.ofNat 8 i := by
        apply BitVec.eq_of_toNat_eq
        simp
        omega
      rw [ep, Memory.writeBytes]
      exact ih (m.write p.toNat v) (p + 1) (by omega) (by simpa using hx)

/-! ## All a turn can do -/

/-- What a turn can do to the state below the controller: nothing, one instruction, the fault or refusal of an access that is
none, or a step of the reset pulse. -/
def TurnEffect (q u : State) : Prop :=
  u = q ∨ (∃ i, exec i q = .next u) ∨ (∃ f, u = q.faulted f) ∨ (∃ r, u = q.refusedFor r) ∨ u = q.setLine .asserted ∨
    u = q.setLine .released ∨ u = q.setDev Dev.reset

/-- An answer that goes on with an effect on `q` and some controller state, or is the model's own fault (log 22). -/
def TurnAnswer (q : State) (a : Answer) : Prop :=
  a = .fault .noSuchStep ∨ ∃ u c, TurnEffect q u ∧ a = .next (u.setCtl c)

theorem TurnAnswer.of_effect {q u : State} (h : TurnEffect q u) : TurnAnswer q (.next u) := .inr ⟨u, u.ctl, h, rfl⟩

theorem TurnAnswer.quiet (q : State) (c : Ctl) : TurnAnswer q (.next (q.setCtl c)) := .inr ⟨q, c, .inl rfl, rfl⟩

theorem TurnAnswer.exec (i : Instr) (q : State) : TurnAnswer q (exec i q) := by
  obtain ⟨t, h⟩ := exec_next i q
  rw [h]
  exact .of_effect (.inr (.inl ⟨i, h⟩))

theorem TurnAnswer.runDecoded (d : Decoded) (q : State) : TurnAnswer q (runDecoded d q) := by
  cases d with
  | instr i rest => exact .exec i q
  | unmapped w a rest =>
    unfold Machine.runDecoded transUnmapped
    cases q.dev.resetLine with
    | asserted => exact .of_effect (.inr (.inr (.inl ⟨_, rfl⟩)))
    | released => exact .of_effect (.inr (.inr (.inr (.inl ⟨_, rfl⟩))))
  | incomplete => exact .of_effect (.inl rfl)

theorem TurnAnswer.busByAddress (w : Bool) (a b1 : Byte) (q : State) : TurnAnswer q (busByAddress w a b1 q) := by
  unfold Machine.busByAddress
  cases addressOperand a with
  | none => exact .of_effect (.inr (.inr (.inr (.inl ⟨_, rfl⟩))))
  | some a7 => exact .runDecoded ..

/-- An operation that goes on after its transaction only moves the controller. -/
theorem TurnAnswer.andThen {q : State} {a : Answer} {k : State → State} (h : TurnAnswer q a)
    (hk : ∀ u, ∃ c, k u = u.setCtl c) : TurnAnswer q (andThen a k) := by
  rcases h with rfl | ⟨u, c, he, rfl⟩
  · exact .inl rfl
  · rw [andThen_next]
    split
    · exact .inr ⟨u, c, he, rfl⟩
    · obtain ⟨c', hc⟩ := hk (u.setCtl c)
      exact .inr ⟨u, c', he, by rw [hc]; rfl⟩

theorem TurnAnswer.resetStep {n : Nat} {q u : State} (h : resetStep n q = some u) : ∃ v c, TurnEffect q v ∧ u = v.setCtl c := by
  unfold Machine.resetStep at h
  split at h <;> cases h
  · exact ⟨_, _, .inr (.inr (.inr (.inr (.inl rfl)))), rfl⟩
  · exact ⟨_, _, .inl rfl, rfl⟩
  · exact ⟨_, _, .inr (.inr (.inr (.inr (.inr (.inl rfl))))), rfl⟩
  · exact ⟨_, _, .inl rfl, rfl⟩
  · exact ⟨_, _, .inr (.inr (.inr (.inr (.inr (.inr rfl))))), rfl⟩

theorem TurnAnswer.stepOp (req : Request) (pc sub : Nat) (loc : Locals) (q : State) :
    TurnAnswer q (stepOp req pc sub loc q) := by
  have rd : ∀ (r : RegName) (k : State → State), (∀ u, ∃ c, k u = u.setCtl c) → TurnAnswer q (Machine.andThen (busReadReg r q) k) :=
    fun r k hk => .andThen (.runDecoded ..) hk
  have wr : ∀ (r : RegName) (v : Byte) (k : State → State), (∀ u, ∃ c, k u = u.setCtl c) →
      TurnAnswer q (Machine.andThen (busWriteReg r v q) k) := fun r v k hk => .andThen (.runDecoded ..) hk
  cases req with
  | reset =>
    simp only [Machine.stepOp, stepReset]
    cases h : Machine.resetStep pc q with
    | none => exact .inl rfl
    | some u =>
      obtain ⟨v, c, he, rfl⟩ := resetStep h
      simp only []
      split <;> exact .inr ⟨v, _, he, rfl⟩
  | init =>
    simp only [Machine.stepOp, stepInit]
    split
    · cases h : Machine.resetStep sub q with
      | none => exact .inl rfl
      | some u =>
        obtain ⟨v, c, he, rfl⟩ := resetStep h
        simp only []
        split <;> exact .inr ⟨v, _, he, rfl⟩
    · exact rd _ _ fun _ => ⟨_, rfl⟩
    · split <;> exact .quiet q _
    · exact .quiet q _
    · split
      · exact wr _ _ _ fun _ => ⟨_, rfl⟩
      · exact .inl rfl
  | setMode m =>
    simp only [Machine.stepOp, stepSetMode]
    split
    · exact wr _ _ _ fun _ => ⟨_, rfl⟩
    · exact .inl rfl
  | send bytes =>
    simp only [Machine.stepOp, stepSend]
    split
    · split <;> exact .quiet q _
    · exact wr _ _ _ fun _ => ⟨_, rfl⟩
    · exact wr _ _ _ fun _ => ⟨_, rfl⟩
    · split
      · exact wr _ _ _ fun _ => ⟨_, rfl⟩
      · exact .quiet q _
    · exact wr _ _ _ fun _ => ⟨_, rfl⟩
    · exact wr _ _ _ fun _ => ⟨_, rfl⟩
    · refine rd _ _ fun _ => ?_
      unfold afterPoll
      split
      · exact ⟨_, rfl⟩
      · split <;> exact ⟨_, rfl⟩
    · exact wr _ _ _ fun _ => ⟨_, rfl⟩
    · exact .inl rfl
  | tryReceive n =>
    simp only [Machine.stepOp, stepTryReceive]
    split
    · exact wr _ _ _ fun _ => ⟨_, rfl⟩
    · refine rd _ _ fun _ => ?_
      unfold afterFlags
      split <;> exact ⟨_, rfl⟩
    · exact wr _ _ _ fun _ => ⟨_, rfl⟩
    · exact rd _ _ fun _ => ⟨_, rfl⟩
    · split
      · exact rd _ _ fun _ => ⟨_, rfl⟩
      · exact wr _ _ _ fun _ => ⟨_, rfl⟩
      · exact .inl rfl
    · split
      · exact rd _ _ fun _ => ⟨_, rfl⟩
      · exact .quiet q _
    · exact .inl rfl

/-- All a controller's turn can do: on the state with what it took from a queue taken out, one effect and then some
controller state; or the model's own fault. It never answers a refusal. -/
theorem controllerTurn_cases (s : State) : controllerTurn s = .fault .noSuchStep ∨ ∃ cs bs ps u c,
    TurnEffect (((s.setCalls cs).setBusCalls bs).setPort ps) u ∧ controllerTurn s = .next (u.setCtl c) := by
  suffices h : ∃ cs bs ps, TurnAnswer (((s.setCalls cs).setBusCalls bs).setPort ps) (controllerTurn s) by
    obtain ⟨cs, bs, ps, h | ⟨u, c, he, ht⟩⟩ := h
    · exact .inl h
    · exact .inr ⟨cs, bs, ps, u, c, he, ht⟩
  unfold controllerTurn
  split
  · rename_i c more _
    exact ⟨more, s.busCalls, s.port, .exec (c.toInstr s.cfg.maxFrameLen) (s.setCalls more)⟩
  · split
    · exact ⟨s.calls, s.busCalls, s.port, .stepOp ..⟩
    · unfold idleTurn
      split
      · rename_i c more _
        refine ⟨s.calls, ?_⟩
        cases c with
        | raw bytes =>
          exact ⟨keepRaw (Decoded.rest (decode s.cfg.regMap bytes)) more, s.port,
            .runDecoded (decode s.cfg.regMap bytes) (s.setBusCalls _)⟩
        | read a => exact ⟨more, s.port, .busByAddress false a dummyByte (s.setBusCalls more)⟩
        | write a v => exact ⟨more, s.port, .busByAddress true a v (s.setBusCalls more)⟩
      · split
        · rename_i req held _
          exact ⟨s.calls, s.busCalls, held, .exec req.toInstr (s.setPort held)⟩
        · exact ⟨s.calls, s.busCalls, s.port, .of_effect (.inl rfl)⟩

end Sys2Proof.Machine
end

