-- ==== Sys2Proof/Tests/Slice0.lean ====
section
/-! SUPPORT. Tests of single steps, with expected results from spec/95_test_vectors.md (V-... and P1), decoder words written
out from R55 and R60, the refusals of WellFormed, and for each obligation with hypotheses states that meet them. -/

namespace Sys2Proof.Tests

open Sys2Proof.Machine

/-! ## Small states -/

/-- The node at the end of P1 (init has succeeded), in mode `m`; a frame is pending in Transmit. -/
def node (m : Mode) : State :=
  (State.reset.setDev { Dev.reset with
    lr := true, mid := .known 0#4, mode := m
    txJob := if m = .transmit then some [0x41#8, 0x42#8] else none
    regs := { Regs.reset with
      frfMsb := .known 0xE4#8, frfMid := .known 0xC0#8, frfLsb := .known 0x00#8, paConfig := .known 0x8F#8
      modemConfig1 := .known 0x72#8, modemConfig2 := .known 0x70#8, modemConfig3 := .known 0x04#8
      preambleMsb := .known 0x00#8, preambleLsb := .known 0x08#8
      fifoTxBaseAddr := .known 0x00#8, fifoRxBaseAddr := .known 0x00#8 } }).setLife .ready

/-- `node m` with the pointer at `p` and the byte `v` there. -/
def nodeAt (m : Mode) (p v : Byte) : State := ((node m).setReg .fifoAddrPtr p).setBuf p v

/-- `node m` with both done flags set. -/
def flagged (m : Mode) : State := (node m).setDev { (node m).dev with txDone := true, rxDone := true }

/-- A node whose bus makes errors. -/
def noisy (m : Mode) : State := { node m with cfg := { Params.default with busReliable := false } }

/-- What `f` sees in the next state. -/
def after {α : Type} (a : Answer) (f : State → α) : Option α :=
  match a with
  | .next t => some (f t)
  | .fault _ => none
  | .refused _ => none

/-- The byte read (R58). -/
def result (t : State) : Byte := t.bus.resp1

/-! ## WellFormed refuses each ill-formed term -/

def goodRecord : TelemetryRecord := ⟨[0x54#8, 0x53#8], .finite 0, .finite 0, .finite 0, 0#32⟩

theorem test_wf_accepts : (Instr.encode goodRecord 96).wf = true ∧ (Instr.encode goodRecord 1).wf = true ∧
    (Instr.encode goodRecord 255).wf = true ∧ (Instr.send []).wf = true ∧ Params.default.wf = true := by decide

theorem test_wf_tag : (Instr.encode { goodRecord with tag := [0x58#8, 0x58#8] } 96).wf = false := by decide

theorem test_wf_frame_bound_low : (Instr.encode goodRecord 0).wf = false := by decide

theorem test_wf_frame_bound_high : (Instr.encode goodRecord 256).wf = false := by decide

theorem test_wf_register_map : (Params.wf { Params.default with regMap := { RegMap.default with version := 0x01#7 } }) = false := by
  decide

theorem test_wf_frequency : (Params.wf { Params.default with freqHz := 1024000000 }) = false := by decide

theorem test_wf_mode_codes : (Params.wf { Params.default with codes := { ModeCodes.default with transmit := 0b001#3 } }) = false := by
  decide

theorem test_wf_done_bits : (Params.wf { Params.default with rxDoneBit := 3 }) = false := by decide

theorem test_wf_poll_bound : (Params.wf { Params.default with txPollBound := some 0 }) = false ∧
    (Params.wf { Params.default with txPollBound := some 1 }) = true := by decide

/-- The frame bound, as a parameter and in a codec call: 1 and 255 are the ends (R6, R137). -/
theorem test_wf_frame_bound : (Params.wf { Params.default with maxFrameLen := 0 }) = false ∧
    (Params.wf { Params.default with maxFrameLen := 256 }) = false ∧
    (Params.wf { Params.default with maxFrameLen := 255 }) = true ∧ Params.default.maxFrameLen = 96 ∧
    offeredCalls (.encode goodRecord (some 0)) = [] ∧ offeredCalls (.encode goodRecord (some 256)) = [] ∧
    offeredCalls (.encode goodRecord (some 1)) = [.encode goodRecord (some 1)] ∧
    offeredCalls (.encode goodRecord none) = [.encode goodRecord none] ∧ offeredCalls (.decode []) = [.decode []] := by decide

/-! ## Decoding, words written out from R55 (bit 15 direction, bits 14:8 address, bits 7:0 byte 1) and R60 -/

theorem test_decode_rd_fifo : decodeTableWord 16 0b0_0000000_00000000 = some (.rdFifo 0x00#8) := by decide

theorem test_decode_rd_op_mode : decodeTableWord 16 0b0_0000001_11000011 = some (.rdOpMode 0xC3#8) := by decide

theorem test_decode_rd_frf_msb : decodeTableWord 16 0b0_0000110_00000000 = some (.rdFrfMsb 0x00#8) := by decide

theorem test_decode_rd_frf_mid : decodeTableWord 16 0b0_0000111_11000011 = some (.rdFrfMid 0xC3#8) := by decide

theorem test_decode_rd_frf_lsb : decodeTableWord 16 0b0_0001000_00000000 = some (.rdFrfLsb 0x00#8) := by decide

theorem test_decode_rd_pa_config : decodeTableWord 16 0b0_0001001_11000011 = some (.rdPaConfig 0xC3#8) := by decide

theorem test_decode_rd_fifo_addr_ptr : decodeTableWord 16 0b0_0001101_00000000 = some (.rdFifoAddrPtr 0x00#8) := by decide

theorem test_decode_rd_fifo_tx_base_addr : decodeTableWord 16 0b0_0001110_11000011 = some (.rdFifoTxBaseAddr 0xC3#8) := by decide

theorem test_decode_rd_fifo_rx_base_addr : decodeTableWord 16 0b0_0001111_00000000 = some (.rdFifoRxBaseAddr 0x00#8) := by decide

theorem test_decode_rd_fifo_rx_current_addr : decodeTableWord 16 0b0_0010000_11000011 = some (.rdFifoRxCurrentAddr 0xC3#8) := by decide

theorem test_decode_rd_irq_flags : decodeTableWord 16 0b0_0010010_00000000 = some (.rdIrqFlags 0x00#8) := by decide

theorem test_decode_rd_rx_nb_bytes : decodeTableWord 16 0b0_0010011_11000011 = some (.rdRxNbBytes 0xC3#8) := by decide

theorem test_decode_rd_modem_config_1 : decodeTableWord 16 0b0_0011101_00000000 = some (.rdModemConfig1 0x00#8) := by decide

theorem test_decode_rd_modem_config_2 : decodeTableWord 16 0b0_0011110_11000011 = some (.rdModemConfig2 0xC3#8) := by decide

theorem test_decode_rd_preamble_msb : decodeTableWord 16 0b0_0100000_00000000 = some (.rdPreambleMsb 0x00#8) := by decide

theorem test_decode_rd_preamble_lsb : decodeTableWord 16 0b0_0100001_11000011 = some (.rdPreambleLsb 0xC3#8) := by decide

theorem test_decode_rd_payload_length : decodeTableWord 16 0b0_0100010_00000000 = some (.rdPayloadLength 0x00#8) := by decide

theorem test_decode_rd_modem_config_3 : decodeTableWord 16 0b0_0100110_11000011 = some (.rdModemConfig3 0xC3#8) := by decide

theorem test_decode_rd_version : decodeTableWord 16 0b0_1000010_00000000 = some (.rdVersion 0x00#8) := by decide

theorem test_decode_wr_fifo : decodeTableWord 16 0b1_0000000_01011010 = some (.wrFifo 0x5A#8) := by decide

theorem test_decode_wr_op_mode : decodeTableWord 16 0b1_0000001_01011010 = some (.wrOpMode 0x5A#8) := by decide

theorem test_decode_wr_frf_msb : decodeTableWord 16 0b1_0000110_01011010 = some (.wrFrfMsb 0x5A#8) := by decide

theorem test_decode_wr_frf_mid : decodeTableWord 16 0b1_0000111_01011010 = some (.wrFrfMid 0x5A#8) := by decide

theorem test_decode_wr_frf_lsb : decodeTableWord 16 0b1_0001000_01011010 = some (.wrFrfLsb 0x5A#8) := by decide

theorem test_decode_wr_pa_config : decodeTableWord 16 0b1_0001001_01011010 = some (.wrPaConfig 0x5A#8) := by decide

theorem test_decode_wr_fifo_addr_ptr : decodeTableWord 16 0b1_0001101_01011010 = some (.wrFifoAddrPtr 0x5A#8) := by decide

theorem test_decode_wr_fifo_tx_base_addr : decodeTableWord 16 0b1_0001110_01011010 = some (.wrFifoTxBaseAddr 0x5A#8) := by decide

theorem test_decode_wr_fifo_rx_base_addr : decodeTableWord 16 0b1_0001111_01011010 = some (.wrFifoRxBaseAddr 0x5A#8) := by decide

theorem test_decode_wr_fifo_rx_current_addr : decodeTableWord 16 0b1_0010000_01011010 = some (.wrFifoRxCurrentAddr 0x5A#8) := by decide

theorem test_decode_wr_irq_flags : decodeTableWord 16 0b1_0010010_01011010 = some (.wrIrqFlags 0x5A#8) := by decide

theorem test_decode_wr_rx_nb_bytes : decodeTableWord 16 0b1_0010011_01011010 = some (.wrRxNbBytes 0x5A#8) := by decide

theorem test_decode_wr_modem_config_1 : decodeTableWord 16 0b1_0011101_01011010 = some (.wrModemConfig1 0x5A#8) := by decide

theorem test_decode_wr_modem_config_2 : decodeTableWord 16 0b1_0011110_01011010 = some (.wrModemConfig2 0x5A#8) := by decide

theorem test_decode_wr_preamble_msb : decodeTableWord 16 0b1_0100000_01011010 = some (.wrPreambleMsb 0x5A#8) := by decide

theorem test_decode_wr_preamble_lsb : decodeTableWord 16 0b1_0100001_01011010 = some (.wrPreambleLsb 0x5A#8) := by decide

theorem test_decode_wr_payload_length : decodeTableWord 16 0b1_0100010_01011010 = some (.wrPayloadLength 0x5A#8) := by decide

theorem test_decode_wr_modem_config_3 : decodeTableWord 16 0b1_0100110_01011010 = some (.wrModemConfig3 0x5A#8) := by decide

theorem test_decode_wr_version : decodeTableWord 16 0b1_1000010_01011010 = some (.wrVersion 0x5A#8) := by decide

/-- V-E3, V-B31, and the addresses 0x02 and 0x7F that no register has. -/
theorem test_decode_unmapped : decodeTableWord 16 0b1_1111111_00000000 = none ∧
    decodeTableWord 16 0b0_0000010_00000000 = none ∧ decode RegMap.default [0x02#8, 0x00#8] = .unmapped false 0x02#7 [] ∧
    decode RegMap.default [0xFF#8, 0x00#8] = .unmapped true 0x7F#7 [] := by decide

/-- R59, R70: two bytes are taken, fewer are no transaction. -/
theorem test_decode_length : decode RegMap.default [] = .incomplete ∧ decode RegMap.default [0x81#8] = .incomplete ∧
    decode RegMap.default [0x81#8, 0x81#8, 0x05#8] = .instr (.wrOpMode 0x81#8) [0x05#8] := by decide

/-- V-E1, V-E2, V-E4, V-E5. -/
theorem test_encode_bytes : encodeInstr RegMap.default (.wrOpMode 0x81#8) = some (0x81#8, 0x81#8) ∧
    encodeInstr RegMap.default (.rdOpMode 0x00#8) = some (0x01#8, 0x00#8) ∧
    encodeInstr RegMap.default (.rdFifo 0x00#8) = some (0x00#8, 0x00#8) ∧
    encodeInstr RegMap.default (.wrVersion 0x00#8) = some (0xC2#8, 0x00#8) := by decide

/-! ## Values the controller writes -/

/-- V-E7. -/
theorem test_op_mode_bytes : [Mode.sleep, .standby, .transmit, .receiveContinuous].map (opModeByte ModeCodes.default) =
    [0x80#8, 0x81#8, 0x83#8, 0x85#8] := by decide

/-- V-E8, V-E9, V-E10. -/
theorem test_frequency_words : frfNumber 915000000 = 0xE4C000 ∧ frfNumber 868000000 = 0xD90000 ∧
    frfNumber 1100000000 = 0x1130000 ∧ frfFits 1100000000 = false ∧ frfFits 915000000 = true := by decide

/-- V-E11, V-E12. -/
theorem test_preamble_and_masks : preambleMsbOf Config.preambleLen = 0x00#8 ∧ preambleLsbOf Config.preambleLen = 0x08#8 ∧
    txDoneMask Params.default = 0x08#8 ∧ rxDoneMask Params.default = 0x40#8 ∧
    testMask 0x48#8 (txDoneMask Params.default) = true := by decide

/-! ## Reads, one step each -/

/-- V-B5. -/
theorem test_read_frf_msb : after (exec (.rdFrfMsb 0x00#8) (node .standby)) result = some 0xE4#8 := by decide

/-- V-B5. -/
theorem test_read_frf_mid : after (exec (.rdFrfMid 0x00#8) (node .standby)) result = some 0xC0#8 := by decide

/-- V-B5. -/
theorem test_read_frf_lsb : after (exec (.rdFrfLsb 0x00#8) (node .standby)) result = some 0x00#8 := by decide

/-- V-B6. -/
theorem test_read_pa_config : after (exec (.rdPaConfig 0x00#8) (node .standby)) result = some 0x8F#8 := by decide

/-- V-B15. -/
theorem test_read_fifo_tx_base_addr : after (exec (.rdFifoTxBaseAddr 0x00#8) (node .standby)) result = some 0x00#8 := by decide

/-- V-B15. -/
theorem test_read_fifo_rx_base_addr : after (exec (.rdFifoRxBaseAddr 0x00#8) (node .standby)) result = some 0x00#8 := by decide

/-- V-B22. -/
theorem test_read_modem_config_1 : after (exec (.rdModemConfig1 0x00#8) (node .standby)) result = some 0x72#8 := by decide

/-- V-B22. -/
theorem test_read_modem_config_2 : after (exec (.rdModemConfig2 0x00#8) (node .standby)) result = some 0x70#8 := by decide

/-- V-B22. -/
theorem test_read_modem_config_3 : after (exec (.rdModemConfig3 0x00#8) (node .standby)) result = some 0x04#8 := by decide

/-- V-B23. -/
theorem test_read_preamble_msb : after (exec (.rdPreambleMsb 0x00#8) (node .standby)) result = some 0x00#8 := by decide

/-- V-B23. -/
theorem test_read_preamble_lsb : after (exec (.rdPreambleLsb 0x00#8) (node .standby)) result = some 0x08#8 := by decide

/-- V-B6, R16: Unknown after reset; the read completes and the cell stays Unknown. -/
theorem test_read_unknown : after (exec (.rdPaConfig 0x00#8) State.reset) (fun t => (t.fault, t.reg .paConfig)) =
    some (none, .unknown) := by decide

/-- V-B10, R57: the dummy byte does not matter. -/
theorem test_read_fifo_wraps : after (exec (.rdFifo 0xFF#8) (nodeAt .standby 0xFF#8 0xAA#8))
    (fun t => (result t, t.reg .fifoAddrPtr)) = some (0xAA#8, .known 0x00#8) := by decide

/-- V-B14 and V-B11. -/
theorem test_read_fifo_receiving : after (exec (.rdFifo 0x00#8) (nodeAt .receiveContinuous 0x03#8 0x41#8))
      (fun t => (result t, t.reg .fifoAddrPtr)) = some (0x41#8, .known 0x04#8) ∧
    after (exec (.rdFifo 0x00#8) (node .standby)) State.fault = some (some .pointerUnknown) := by decide

/-- V-B3. -/
theorem test_read_op_mode : after (exec (.rdOpMode 0x00#8) (node .standby)) result = some 0x81#8 ∧
    after (exec (.rdOpMode 0x00#8) (node .transmit)) result = some 0x83#8 := by decide

/-- V-B7. -/
theorem test_read_fifo_addr_ptr :
    after (exec (.rdFifoAddrPtr 0x00#8) ((node .standby).setReg .fifoAddrPtr 0x05#8)) result = some 0x05#8 := by decide

/-- V-B16. -/
theorem test_read_fifo_rx_current_addr :
    after (exec (.rdFifoRxCurrentAddr 0x00#8) (deliver [0x41#8, 0x42#8] 0x30#8 (node .receiveContinuous))) result =
      some 0x30#8 := by decide

/-- V-B17. -/
theorem test_read_rx_nb_bytes :
    after (exec (.rdRxNbBytes 0x00#8) (deliver [0x41#8, 0x42#8] 0x30#8 (node .receiveContinuous))) result =
      some 0x02#8 := by decide

/-- V-B18: with the other bits drawn 0 the byte is 0x48; the read itself clears nothing. -/
theorem test_read_irq_flags : irqByte Params.default 0x00#8 (flagged .standby).dev = 0x48#8 ∧
    irqByte Params.default 0xFF#8 (node .standby).dev = 0xB7#8 ∧
    after (exec (.rdIrqFlags 0x00#8) (flagged .standby)) (fun t => (t.dev.txDone, t.dev.rxDone)) = some (true, true) := by
  decide

/-- V-B24. -/
theorem test_read_payload_length :
    after (exec (.rdPayloadLength 0x00#8) ((node .standby).setReg .payloadLength 0x19#8)) result = some 0x19#8 := by decide

/-- V-B1, V-B2. -/
theorem test_read_version : after (exec (.rdVersion 0x00#8) State.reset) result = some 0x12#8 ∧
    after (exec (.rdVersion 0x00#8) { State.reset with cfg := { Params.default with devId := 0x00#8 } }) result =
      some 0x00#8 := by decide

/-- V-B32. -/
theorem test_transaction_during_reset :
    after (exec (.rdVersion 0x00#8) (State.reset.setLine .asserted)) State.fault = some (some .txnDuringReset) ∧
    after (exec (.wrFifoAddrPtr 0x05#8) (State.reset.setLine .asserted)) (fun t => (t.fault, t.reg .fifoAddrPtr)) =
      some (some .txnDuringReset, .unknown) := by decide

/-! ## Writes, one step each -/

/-- V-B27, V-B29. -/
theorem test_write_frf_msb : after (exec (.wrFrfMsb 0xE4#8) State.reset) (fun t => t.reg .frfMsb) = some (.known 0xE4#8) ∧
    after (exec (.wrFrfMsb 0xE4#8) (node .transmit)) State.fault = some (some .configWhileActive) := by decide

/-- V-B28, V-B29. -/
theorem test_write_frf_mid : after (exec (.wrFrfMid 0xC0#8) State.reset) (fun t => t.reg .frfMid) = some (.known 0xC0#8) ∧
    after (exec (.wrFrfMid 0xC0#8) (node .transmit)) State.fault = some (some .configWhileActive) := by decide

/-- V-B28, V-B29. -/
theorem test_write_frf_lsb : after (exec (.wrFrfLsb 0x00#8) State.reset) (fun t => t.reg .frfLsb) = some (.known 0x00#8) ∧
    after (exec (.wrFrfLsb 0x00#8) (node .transmit)) State.fault = some (some .configWhileActive) := by decide

/-- V-B28, V-B29. -/
theorem test_write_pa_config : after (exec (.wrPaConfig 0x8F#8) State.reset) (fun t => t.reg .paConfig) = some (.known 0x8F#8) ∧
    after (exec (.wrPaConfig 0x8F#8) (node .transmit)) State.fault = some (some .configWhileActive) := by decide

/-- V-B28, V-B29. -/
theorem test_write_fifo_tx_base_addr : after (exec (.wrFifoTxBaseAddr 0x00#8) State.reset) (fun t => t.reg .fifoTxBaseAddr) = some (.known 0x00#8) ∧
    after (exec (.wrFifoTxBaseAddr 0x00#8) (node .transmit)) State.fault = some (some .configWhileActive) := by decide

/-- V-B28, V-B29. -/
theorem test_write_fifo_rx_base_addr : after (exec (.wrFifoRxBaseAddr 0x00#8) State.reset) (fun t => t.reg .fifoRxBaseAddr) = some (.known 0x00#8) ∧
    after (exec (.wrFifoRxBaseAddr 0x00#8) (node .transmit)) State.fault = some (some .configWhileActive) := by decide

/-- V-B26. -/
theorem test_write_modem_config_1 : after (exec (.wrModemConfig1 0x72#8) State.reset) (fun t => t.reg .modemConfig1) = some (.known 0x72#8) ∧
    after (exec (.wrModemConfig1 0x72#8) (node .receiveContinuous)) State.fault = some (some .configWhileActive) := by decide

/-- V-B28, V-B29. -/
theorem test_write_modem_config_2 : after (exec (.wrModemConfig2 0x70#8) State.reset) (fun t => t.reg .modemConfig2) = some (.known 0x70#8) ∧
    after (exec (.wrModemConfig2 0x70#8) (node .transmit)) State.fault = some (some .configWhileActive) := by decide

/-- V-B28, V-B29. -/
theorem test_write_modem_config_3 : after (exec (.wrModemConfig3 0x04#8) State.reset) (fun t => t.reg .modemConfig3) = some (.known 0x04#8) ∧
    after (exec (.wrModemConfig3 0x04#8) (node .transmit)) State.fault = some (some .configWhileActive) := by decide

/-- V-B28, V-B29. -/
theorem test_write_preamble_msb : after (exec (.wrPreambleMsb 0x00#8) State.reset) (fun t => t.reg .preambleMsb) = some (.known 0x00#8) ∧
    after (exec (.wrPreambleMsb 0x00#8) (node .transmit)) State.fault = some (some .configWhileActive) := by decide

/-- V-B28, V-B29. -/
theorem test_write_preamble_lsb : after (exec (.wrPreambleLsb 0x08#8) State.reset) (fun t => t.reg .preambleLsb) = some (.known 0x08#8) ∧
    after (exec (.wrPreambleLsb 0x08#8) (node .transmit)) State.fault = some (some .configWhileActive) := by decide

/-- V-B8, V-B9. -/
theorem test_write_fifo : after (exec (.wrFifo 0x54#8) ((node .standby).setReg .fifoAddrPtr 0x00#8))
      (fun t => (t.buf 0x00#8, t.reg .fifoAddrPtr)) = some (.known 0x54#8, .known 0x01#8) ∧
    after (exec (.wrFifo 0xAA#8) ((node .standby).setReg .fifoAddrPtr 0xFF#8))
      (fun t => (t.buf 0xFF#8, t.reg .fifoAddrPtr)) = some (.known 0xAA#8, .known 0x00#8) := by decide

/-- V-B12, V-B13. -/
theorem test_write_fifo_faults : after (exec (.wrFifo 0x00#8) State.reset) State.fault = some (some .fifoInSleep) ∧
    after (exec (.wrFifo 0x00#8) (node .transmit)) State.fault = some (some .fifoDuringTransmit) := by decide

/-- V-B7. -/
theorem test_write_fifo_addr_ptr :
    after (exec (.wrFifoAddrPtr 0x05#8) (node .standby)) (fun t => t.reg .fifoAddrPtr) = some (.known 0x05#8) := by decide

/-- V-B19, V-B20, V-B21. -/
theorem test_write_irq_flags :
    after (exec (.wrIrqFlags 0x08#8) (flagged .standby)) (fun t => (t.dev.txDone, t.dev.rxDone)) = some (false, true) ∧
    after (exec (.wrIrqFlags 0x00#8) (flagged .standby)) (fun t => (t.dev.txDone, t.dev.rxDone)) = some (true, true) ∧
    after (exec (.wrIrqFlags 0xFF#8) (flagged .standby)) (fun t => (t.dev.txDone, t.dev.rxDone)) =
      some (false, false) := by decide

/-- V-B24, V-B25. -/
theorem test_write_payload_length :
    after (exec (.wrPayloadLength 0x19#8) (node .standby)) (fun t => t.reg .payloadLength) = some (.known 0x19#8) ∧
    after (exec (.wrPayloadLength 0x01#8) (node .transmit)) State.fault = some (some .lengthDuringTransmit) := by decide

/-- V-B30, V-E5. -/
theorem test_write_read_only :
    after (exec (.wrFifoRxCurrentAddr 0x00#8) (node .standby)) State.refusal = some (some .writeToReadOnly) ∧
    after (exec (.wrRxNbBytes 0x00#8) (node .standby)) State.refusal = some (some .writeToReadOnly) ∧
    after (exec (.wrVersion 0x00#8) (node .standby)) State.refusal = some (some .writeToReadOnly) := by decide

/-! ## The mode machine -/

/-- Long-range bit, mode, fault and refusal after an OP_MODE write. -/
def modeAfter (v : Byte) (s : State) : Option (Bool × Mode × Option Fault × Option Refusal) :=
  after (exec (.wrOpMode v) s) (fun t => (t.dev.lr, t.dev.mode, t.fault, t.refusal))

/-- V-M1 to V-M6. -/
theorem test_mode_from_sleep : [0x81#8, 0x80#8, 0x83#8, 0x85#8, 0x03#8, 0x01#8].map (modeAfter · State.reset) =
     [some (true, .standby, none, none),
      some (false, .sleep, some .modeTransitionOffDiagram, none),
      some (false, .sleep, some .modeTransitionOffDiagram, none),
      some (false, .sleep, some .modeTransitionOffDiagram, none),
      some (false, .sleep, none, some .legacyModeUnmodelled),
      some (false, .standby, none, none)] := by decide

/-- V-M7, V-M8, V-M10, V-M11, V-M12, V-M13, V-E13. -/
theorem test_mode_from_standby : [0x80#8, 0x81#8, 0x83#8, 0x85#8, 0x01#8, 0x87#8, 0x82#8].map (modeAfter · (node .standby)) =
     [some (true, .standby, some .modeTransitionOffDiagram, none),
      some (true, .standby, none, none),
      some (true, .standby, some .lengthUnknown, none),
      some (true, .receiveContinuous, none, none),
      some (true, .standby, some .longRangeChangeOutsideSleep, none),
      some (true, .standby, none, some .reservedMode),
      some (true, .standby, none, some .reservedMode)] := by decide

/-- V-M9: the two buffer bytes become the pending frame. -/
theorem test_mode_enters_transmit :
    after (exec (.wrOpMode 0x83#8)
      ((((node .standby).setReg .payloadLength 0x02#8).setBuf 0x00#8 0x41#8).setBuf 0x01#8 0x42#8))
      (fun t => (t.dev.mode, t.dev.txJob)) = some (.transmit, some [0x41#8, 0x42#8]) := by decide

/-- V-M14. -/
theorem test_mode_from_transmit :
    after (exec (.wrOpMode 0x81#8) (node .transmit)) (fun t => (t.dev.mode, t.dev.txJob, t.dev.txDone)) =
      some (.standby, none, false) := by decide

/-- V-M15 to V-M17. -/
theorem test_mode_stuck_in_transmit : [0x83#8, 0x85#8, 0x80#8].map (modeAfter · (node .transmit)) =
     [some (true, .transmit, some .modeTransitionOffDiagram, none),
      some (true, .transmit, some .modeTransitionOffDiagram, none),
      some (true, .transmit, some .modeTransitionOffDiagram, none)] := by decide

/-- R124: nothing or a first part. -/
theorem test_abort_emissions : abortEmission [0x41#8, 0x42#8] none = [] ∧
    abortEmission [0x41#8, 0x42#8] (some 1) = [.part [0x41#8]] ∧
    abortEmission [0x41#8, 0x42#8] (some 9) = [.part [0x41#8, 0x42#8]] := by decide

/-- V-M18 to V-M21. -/
theorem test_mode_from_receive : [0x81#8, 0x85#8, 0x83#8, 0x80#8].map (modeAfter · (node .receiveContinuous)) =
     [some (true, .standby, none, none),
      some (true, .receiveContinuous, none, none),
      some (true, .receiveContinuous, some .modeTransitionOffDiagram, none),
      some (true, .receiveContinuous, some .modeTransitionOffDiagram, none)] := by
  decide

/-- V-M30. -/
theorem test_tx_complete :
    let t := txComplete (node .transmit)
    (t.air, t.dev.txJob, t.dev.txDone, t.dev.mode) = ([.full [0x41#8, 0x42#8]], none, true, .standby) := by decide

/-- V-M31. -/
theorem test_rx_deliver :
    let t := deliver [0x41#8, 0x42#8, 0x43#8] 0xFE#8 (node .receiveContinuous)
    (t.buf 0xFE#8, t.buf 0xFF#8, t.buf 0x00#8, t.reg .fifoRxCurrentAddr, t.reg .rxNbBytes, t.dev.rxDone, t.reg .fifoAddrPtr) =
      (.known 0x41#8, .known 0x42#8, .known 0x43#8, .known 0xFE#8, .known 0x03#8, true, .unknown) := by decide

/-- V-M33. -/
theorem test_rx_not_enabled : rxEnabled (node .standby) = false ∧ rxEnabled (node .transmit) = false ∧
    rxEnabled (node .receiveContinuous) = true := by decide

/-! ## Requests -/

/-- The operation, the fault and the refusal after a request. -/
def requestAfter (i : Instr) (s : State) : Option (Op × Option Fault × Option Refusal) :=
  after (exec i s) (fun t => (t.ctl.op, t.fault, t.refusal))

/-- R31, V-M36, V-M39. -/
theorem test_reset : requestAfter .reset (node .transmit) = some (.running .reset 1 0 Locals.blank, none, none) ∧
    requestAfter .reset ((node .standby).setLife .halted) = some (.idle, some .requestInWrongState, none) := by decide

/-- P1, V-M37, V-E10. -/
theorem test_init : requestAfter .init State.reset = some (.running .init 1 1 Locals.blank, none, none) ∧
    requestAfter .init (node .standby) = some (.idle, some .requestInWrongState, none) ∧
    requestAfter .init { State.reset with cfg := { Params.default with freqHz := 1100000000 } } =
      some (.idle, none, some .frequencyOutOfRange) := by decide

/-- V-M34, V-M38. -/
theorem test_set_mode : after (controllerTurn ((node .standby).start (.setMode .receiveContinuous)))
      (fun t => (t.dev.mode, t.ctl.result)) = some (.receiveContinuous, some .ok) ∧
    requestAfter (.setMode .standby) State.reset = some (.idle, some .requestInWrongState, none) := by decide

/-- V-M35. -/
theorem test_set_mode_sleep : after (controllerTurn ((node .standby).start (.setMode .sleep)))
    (fun t => (t.dev.mode, t.fault, t.ctl.op)) = some (.standby, some .modeTransitionOffDiagram, .idle) := by decide

/-- V-F1, V-F2, V-F3. -/
theorem test_send_length :
    after (controllerTurn ((node .receiveContinuous).start (.send (List.replicate 256 0x41#8))))
      (fun t => (t.ctl.result, t.dev.mode)) = some (some .tooLarge, .receiveContinuous) ∧
    after (controllerTurn ((node .standby).start (.send (List.replicate 255 0x41#8)))) (fun t => t.ctl.result) =
      some none := by decide +kernel

/-- V-M38. -/
theorem test_send_guard : requestAfter (.send [0x41#8]) ((node .standby).setLife .halted) =
    some (.idle, some .requestInWrongState, none) := by decide

/-- V-F17, V-M38. -/
theorem test_try_receive_arguments : requestAfter (.tryReceive 0) (node .standby) = some (.idle, none, some .maxLengthZero) ∧
    requestAfter (.tryReceive 0) State.reset = some (.idle, some .requestInWrongState, none) := by decide

/-- V-F11, V-F12, V-F13, V-F14: the count read and the result built. -/
theorem test_try_receive_result : receiveCount 0x03#8 3 = 2 ∧ receiveCount 0x03#8 4 = 3 ∧ receiveCount 0x03#8 1 = 0 ∧
    frameResult [0x41#8, 0x42#8] 0x03#8 3 = .frame [0x41#8, 0x42#8, 0x00#8] true ∧
    frameResult [0x41#8, 0x42#8, 0x43#8] 0x03#8 4 = .frame [0x41#8, 0x42#8, 0x43#8, 0x00#8] false ∧
    frameResult [] 0x03#8 1 = .frame [0x00#8] true ∧ frameResult [] 0x00#8 64 = .frame [0x00#8] false := by decide

/-- R152: a request offered while an operation runs waits at the port. -/
theorem test_request_is_held :
    after (exec .init ((node .standby).start (.send [0x41#8]))) (fun t => (t.port, t.fault)) = some ([.init], none) := by
  decide

/-! ## The codec -/

/-- V-C10: the 25 bytes of "TS,25.31,61.20,100.84,123". -/
def frameC10 : List Byte :=
  [0x54#8, 0x53#8, 0x2C#8, 0x32#8, 0x35#8, 0x2E#8, 0x33#8, 0x31#8, 0x2C#8, 0x36#8, 0x31#8, 0x2E#8, 0x32#8, 0x30#8, 0x2C#8,
   0x31#8, 0x30#8, 0x30#8, 0x2E#8, 0x38#8, 0x34#8, 0x2C#8, 0x31#8, 0x32#8, 0x33#8]

/-- The record of V-C10. -/
def recordC10 : TelemetryRecord :=
  ⟨Config.tag, .finite (mkRat 25305 1000), .finite (mkRat 612 10), .finite (mkRat 10084 100), 123#32⟩

/-- V-C10, V-C15. -/
theorem test_encode : after (exec (.encode recordC10 96) State.reset) (fun t => t.ctl.result) = some (some (.encoded frameC10)) ∧
    encodeRecord recordC10 25 = .encoded frameC10 ∧ encodeRecord recordC10 24 = .tooLong := by decide

/-- What a call that gives no bound leaves in a node whose parameter is `n`. -/
def unboundedCall (n : Nat) : Option (Option Result) :=
  after (controllerTurn (({ State.reset with cfg := { Params.default with maxFrameLen := n } } : State).setCalls
    [.encode recordC10 none])) (fun t => t.ctl.result)

/-- V-C10, V-C15 through the parameter: its default, and 24. -/
theorem test_encode_without_a_bound : unboundedCall 96 = some (some (.encoded frameC10)) ∧
    unboundedCall 24 = some (some .tooLong) := by decide

/-- V-C16. -/
theorem test_encode_non_finite : encodeRecord { recordC10 with temperature := .nonFinite } 1 = .nonFinite := by decide

/-- V-C1, V-C2, V-C4, V-C5, V-C6, V-C7. -/
theorem test_round2 : round2 (mkRat 25305 1000) = mkRat 2531 100 ∧ round2 (mkRat (-25305) 1000) = mkRat (-2531) 100 ∧
    round2 (mkRat 5 1000) = mkRat 1 100 ∧ round2 (mkRat 4999 1000000) = 0 ∧ round2 (mkRat (-4) 1000) = 0 ∧ round2 0 = 0 := by
  decide

/-- V-C6: "-0.00"; V-C9: "-3.10". -/
theorem test_fmt2_signs : fmt2 (mkRat (-4) 1000) = [0x2D#8, 0x30#8, 0x2E#8, 0x30#8, 0x30#8] ∧
    fmt2 (mkRat (-31) 10) = [0x2D#8, 0x33#8, 0x2E#8, 0x31#8, 0x30#8] := by decide

/-- V-C34, V-C20. -/
theorem test_decode : after (exec (.decode (frameC10 ++ [0x00#8])) State.reset) (fun t => t.ctl.result) =
    some (some (.decoded ⟨Config.tag, .finite (mkRat 2531 100), .finite (mkRat 612 10), .finite (mkRat 10084 100),
      some 123#32⟩)) := by decide

/-- The bytes of "TS," before some other bytes. -/
def ts (x : List Byte) : List Byte := [0x54#8, 0x53#8, 0x2C#8] ++ x

/-- V-C31, V-C32, V-C35, V-C36, V-C37. -/
theorem test_decode_shapes : decodeFrame .reject [0x74#8, 0x73#8, 0x2C#8, 0x31#8] = .tagMismatch ∧
    decodeFrame .reject [] = .tagMismatch ∧ decodeFrame .reject (0x00#8 :: ts [0x31#8]) = .tagMismatch ∧
    decodeFrame .reject (ts [0x31#8, 0x2C#8, 0x32#8, 0x2C#8, 0x33#8]) =
      .decoded ⟨Config.tag, .finite 1, .finite 2, .finite 3, none⟩ ∧
    decodeFrame .reject (ts [0x31#8, 0x2C#8, 0x32#8]) = .fieldCount ∧
    decodeFrame .reject (ts [0x31#8, 0x2C#8, 0x32#8, 0x2C#8, 0x33#8, 0x2C#8, 0x34#8, 0x2C#8, 0x35#8]) = .fieldCount := by
  decide

/-- V-C39, V-C40, V-C42: "1.5e3", "+1", ".5", "1.", " 1", "" are no numbers; "-4" is no sequence. -/
theorem test_numbers_refused : parseNum [0x31#8, 0x2E#8, 0x35#8, 0x65#8, 0x33#8] = none ∧ parseNum [0x2B#8, 0x31#8] = none ∧
    parseNum [0x2E#8, 0x35#8] = none ∧ parseNum [0x31#8, 0x2E#8] = none ∧ parseNum [0x20#8, 0x31#8] = none ∧
    parseNum [] = none ∧ parseU32 [0x2D#8, 0x34#8] = none ∧ parseU32 [] = none := by decide

/-- V-C41 and the largest sequence. -/
theorem test_sequence_range :
    parseU32 [0x34#8, 0x32#8, 0x39#8, 0x34#8, 0x39#8, 0x36#8, 0x37#8, 0x32#8, 0x39#8, 0x36#8] = none ∧
    parseU32 [0x34#8, 0x32#8, 0x39#8, 0x34#8, 0x39#8, 0x36#8, 0x37#8, 0x32#8, 0x39#8, 0x35#8] = some 0xFFFFFFFF#32 := by
  decide

/-- V-C40 under both policies. -/
theorem test_parse_policy : decodeFrame .reject (ts [0x31#8, 0x2C#8, 0x2C#8, 0x33#8]) = .badNumber ∧
    decodeFrame .zero (ts [0x31#8, 0x2C#8, 0x2C#8, 0x33#8]) =
      .decoded ⟨Config.tag, .finite 1, .finite 0, .finite 3, none⟩ := by decide

/-! ## The step -/

/-- The placed word is what the next step runs: V-B1 and V-M1 from reset. -/
theorem test_step_runs_the_word :
    after (step (State.reset.withFetchWord 16 0x4200)) (fun t => (result t, t.busCalls)) = some (0x12#8, []) ∧
    after (step (State.reset.withFetchWord 16 0x8181)) (fun t => (t.dev.mode, t.dev.lr)) = some (.standby, true) := by decide

/-- V-E3 and V-E6: an unmapped address and an address operand with bit 7 set are refused. -/
theorem test_bus_refusals :
    after (step (State.reset.withFetchWord 16 0xFF00)) State.refusal = some (some .unmappedRegister) ∧
    after (serveBusCall (.read 0x81#8) [] State.reset) State.refusal = some (some .addressBit7Set) := by decide

/-- R117 step 1: the pulse begins. -/
theorem test_reset_line : after (controllerTurn (State.reset.start .reset)) (fun t => t.dev.resetLine) = some .asserted := by
  decide

/-- R144, R145, R146: some codes of the tables. -/
theorem test_codes : resultCode (.encoded []) = 0 ∧ resultCode (.frame [] true) = 5 ∧ resultCode .badNumber = 10 ∧
    faultCode .txnDuringReset = some 1 ∧ faultCode .requestInWrongState = some 11 ∧
    refusalCode .unmappedRegister = some 1 ∧ refusalCode .addressBit7Set = some 7 := by decide

/-! ## States that meet the hypotheses of the obligations -/
/-- Encoding. -/
theorem witness_DecodeOfEncodedTransaction : RegMap.default.wf = true ∧
    (Instr.rdFifo 0x00#8).transaction?.isSome = true ∧ (Instr.wrVersion 0xFF#8).transaction?.isSome = true := by decide

theorem witness_EncodeOfDecodedTransaction :
    decode RegMap.default [0xC2#8, 0xFF#8, 0x05#8] = .instr (.wrVersion 0xFF#8) [0x05#8] := by decide

/-- The lowest and the highest operand with bit 7 set. -/
theorem witness_TransactionByteZero : (0x80#8 : Byte).getLsbD 7 = true ∧ (0xFF#8 : Byte).getLsbD 7 = true := by decide

theorem witness_UnmappedAddressIsRefused : (∀ r, RegMap.default.addr r ≠ 0x02#7) ∧ (∀ r, RegMap.default.addr r ≠ 0x7F#7) ∧
    State.reset.cfg.regMap = RegMap.default ∧ State.reset.dev.resetLine = .released ∧
    (State.reset.setLine .asserted).dev.resetLine = .asserted ∧ State.reset.busCalls = [] ∧ State.reset.refusal = none ∧
    ((node .standby).start (.setMode .standby)).ctl.op ≠ .idle ∧ ((node .standby).start (.setMode .standby)).refusal = none ∧
    ∃ t, controllerTurn ((node .standby).start (.setMode .standby)) = .next t :=
  ⟨fun r => by cases r <;> decide, fun r => by cases r <;> decide, rfl, rfl, rfl, rfl, rfl, by decide, rfl, _, rfl⟩

/-- The lowest frequency whose word does not fit. -/
def tooFast : State := { State.reset with cfg := { Params.default with freqHz := 1024000000 } }

/-- At the lowest refused word, and just below it. -/
theorem witness_FrequencyWordIsNearest : tooFast.ctl.op = .idle ∧ tooFast.ctl.life = .uninit ∧ tooFast.fault = none ∧
    tooFast.refusal = none ∧ frfNumber tooFast.cfg.freqHz = 2 ^ 24 ∧ frfNumber 1023999938 < 2 ^ 24 := by decide

/-- V-E10 and the refusal at build: no step of such a node, whoever is in turn. -/
theorem test_frequency_refused_at_build :
    (State.powerOn { Params.default with freqHz := 1100000000 }).refusal = some .frequencyOutOfRange ∧
    State.powerOn Params.default = State.reset ∧
    step (tooFast.setPort [.reset]) = .refused .frequencyOutOfRange ∧
    step (tooFast.setTurn .rxDeliver) = .refused .frequencyOutOfRange := ⟨rfl, rfl, rfl, rfl⟩

/-! Transactions. -/

theorem witness_busReady (m : Mode) : (node m).busReady := ⟨rfl, rfl⟩

theorem witness_ConfigurationRegisterReads : StoreReg.frfMsb.isConfig = true ∧ StoreReg.preambleLsb.isConfig = true ∧
    (node .standby).reg .frfMsb = .known 0xE4#8 ∧ State.reset.reg .frfMsb = .unknown ∧
    State.reset.busReady ∧ (node .standby).busReady :=
  ⟨rfl, rfl, rfl, rfl, ⟨rfl, rfl⟩, ⟨rfl, rfl⟩⟩

theorem witness_PointerCountAndLengthReads :
    (∀ r ∈ [StoreReg.fifoAddrPtr, .fifoRxCurrentAddr, .rxNbBytes, .payloadLength],
      (node .standby).reg r = .unknown ∧ ((node .standby).setReg r 0xFF#8).reg r = .known 0xFF#8) ∧
    (node .standby).busReady :=
  ⟨by decide, ⟨rfl, rfl⟩⟩

/-- Both modes, the last offset, a known and an Unknown byte; then each fault's condition. -/
theorem witness_FifoReadStepsThePointer :
    ((nodeAt .standby 0xFF#8 0xAA#8).dev.mode = .standby ∧ (nodeAt .standby 0xFF#8 0xAA#8).reg .fifoAddrPtr = .known 0xFF#8 ∧
      (nodeAt .standby 0xFF#8 0xAA#8).buf 0xFF#8 = .known 0xAA#8) ∧
    ((nodeAt .receiveContinuous 0x00#8 0x41#8).dev.mode = .receiveContinuous ∧
      ((node .receiveContinuous).setReg .fifoAddrPtr 0x00#8).buf 0x00#8 = .unknown) ∧
    (node .sleep).dev.mode = .sleep ∧ (node .transmit).dev.mode = .transmit ∧
    (node .standby).reg .fifoAddrPtr = .unknown ∧ (nodeAt .standby 0xFF#8 0xAA#8).busReady :=
  ⟨by decide, by decide, rfl, rfl, rfl, ⟨rfl, rfl⟩⟩

theorem witness_OpModeReadGivesTheCurrentMode : (node .standby).dev.mid = .known 0#4 ∧ State.reset.dev.mid = .unknown ∧
    (node .standby).busReady ∧ State.reset.busReady := ⟨rfl, rfl, ⟨rfl, rfl⟩, ⟨rfl, rfl⟩⟩

theorem witness_IrqFlagsReadShowsTheFlags : (node .standby).busReady ∧
    (node .standby).cfg.txDoneBit ≠ (node .standby).cfg.rxDoneBit := ⟨⟨rfl, rfl⟩, by decide⟩

theorem witness_VersionReadGivesTheIdentity : State.reset.busReady := ⟨rfl, rfl⟩

theorem witness_FifoWriteStoresAndStepsThePointer :
    (nodeAt .standby 0xFF#8 0xAA#8).reg .fifoAddrPtr = .known 0xFF#8 ∧ (nodeAt .standby 0xFF#8 0xAA#8).dev.mode = .standby ∧
    (nodeAt .receiveContinuous 0x00#8 0x41#8).dev.mode = .receiveContinuous ∧
    (nodeAt .receiveContinuous 0x00#8 0x41#8).reg .fifoAddrPtr = .known 0x00#8 ∧
    (node .sleep).dev.mode = .sleep ∧ (node .transmit).dev.mode = .transmit ∧
    (node .receiveContinuous).reg .fifoAddrPtr = .unknown ∧ (node .sleep).busReady :=
  ⟨rfl, rfl, rfl, rfl, rfl, rfl, rfl, ⟨rfl, rfl⟩⟩

theorem witness_ConfigurationWritesAndTheirGuard : StoreReg.frfMsb.isConfig = true ∧ StoreReg.preambleLsb.isConfig = true ∧
    (∀ m, (node m).dev.mode = m ∧ (node m).busReady) := ⟨rfl, rfl, fun _ => ⟨rfl, ⟨rfl, rfl⟩⟩⟩

theorem witness_PointerAndLengthWrites : (node .sleep).dev.mode ≠ .transmit ∧ (node .transmit).dev.mode = .transmit ∧
    (node .sleep).busReady ∧ (node .transmit).busReady := ⟨by decide, rfl, ⟨rfl, rfl⟩, ⟨rfl, rfl⟩⟩

theorem witness_IrqFlagsWriteOneClears : (flagged .transmit).busReady := ⟨rfl, rfl⟩

theorem witness_ReadOnlyWritesAreRefused : (node .sleep).busReady := ⟨rfl, rfl⟩

/-- In the pulse, with a transaction from each end of the table; and a step from a legal position. -/
theorem witness_NoTransactionDuringReset : (State.reset.setLine .asserted).dev.resetLine = .asserted ∧
    (Instr.rdFifo 0x00#8).transaction?.isSome = true ∧ (Instr.wrVersion 0xFF#8).transaction?.isSome = true ∧
    State.reset.positionOk ∧ (∃ t, step State.reset = .next t) ∧
    ((State.reset.setLine .asserted).goto .reset 3 0 Locals.blank).positionOk ∧
    ∃ t, step ((State.reset.setLine .asserted).goto .reset 3 0 Locals.blank) = .next t :=
  ⟨rfl, rfl, rfl, rfl, ⟨_, rfl⟩, ⟨by decide, by decide, by decide⟩, ⟨_, rfl⟩⟩

theorem witness_UnreliableWrites : (noisy .standby).dev.resetLine = .released ∧ (noisy .standby).cfg.busReliable = false :=
  ⟨rfl, rfl⟩

theorem witness_UnreliableReads : (noisy .standby).dev.resetLine = .released ∧ (noisy .standby).cfg.busReliable = false ∧
    (noisy .standby).fault = none ∧
    ∃ t, exec (Instr.ofRead 0x00#8 .version) { noisy .standby with cfg := { (noisy .standby).cfg with busReliable := true } } =
      .next t ∧ t.fault = none := ⟨rfl, rfl, rfl, _, rfl, rfl⟩

/-! The mode machine. -/

theorem reserved_codes : (∀ m, ModeCodes.default.code m ≠ modeField 0x82#8) ∧ ∀ m, ModeCodes.default.code m ≠ modeField 0x87#8 :=
  ⟨fun m => by cases m <;> decide, fun m => by cases m <;> decide⟩

/-- One state and byte for each check: reserved code, lr change, legacy mode, off the diagram. -/
theorem witness_OpModeWriteChecks : (node .standby).busReady ∧ (node .standby).cfg.codes.wf = true ∧
    (∀ m, (node .standby).cfg.codes.code m ≠ modeField 0x87#8) ∧
    (ModeCodes.default.code .standby = modeField 0x01#8 ∧ (0x01#8 : Byte).getLsbD 7 ≠ (node .standby).dev.lr ∧
      (node .standby).dev.mode ≠ .sleep) ∧
    (ModeCodes.default.code .transmit = modeField 0x03#8 ∧ (0x03#8 : Byte).getLsbD 7 = false ∧
      State.reset.dev.mode = .sleep ∧ State.reset.dev.lr = (0x03#8 : Byte).getLsbD 7) ∧
    ModeCodes.default.code .sleep = modeField 0x80#8 ∧ (0x80#8 : Byte).getLsbD 7 = (node .standby).dev.lr ∧
      (node .standby).dev.mode = .standby :=
  ⟨⟨rfl, rfl⟩, by decide, reserved_codes.2, by decide, by decide, rfl, rfl, rfl⟩

/-- From each mode that may go on. -/
theorem witness_OpModeWriteSetsTheFields : (node .standby).busReady ∧ State.reset.busReady ∧
    (node .standby).cfg.codes.wf = true ∧ (node .standby).cfg.codes.code .receiveContinuous = modeField 0x85#8 ∧
    State.reset.cfg.codes.code .standby = modeField 0x01#8 ∧ State.reset.dev.mode = .sleep ∧
    (0x85#8 : Byte).getLsbD 7 = (node .standby).dev.lr ∧ (0x85#8 : Byte).getLsbD 7 = (node .receiveContinuous).dev.lr :=
  ⟨⟨rfl, rfl⟩, ⟨rfl, rfl⟩, by decide, rfl, rfl, rfl, rfl, rfl⟩

/-- The longest frame, wrapping round the buffer's end, an Unknown length and an Unknown base. -/
theorem witness_EnteringTransmitTakesTheFrame : (node .standby).busReady ∧ (node .standby).cfg.codes.wf = true ∧
    (node .standby).cfg.codes.code .transmit = modeField 0x83#8 ∧ (node .standby).dev.mode = .standby ∧
    (node .standby).dev.lr = true ∧ (0x83#8 : Byte).getLsbD 7 = true ∧
    ((node .standby).setReg .payloadLength 0xFF#8).reg .payloadLength = .known 0xFF#8 ∧
    ((node .standby).setReg .payloadLength 0xFF#8).reg .fifoTxBaseAddr = .known 0x00#8 ∧
    ((nodeAt .standby 0x00#8 0x41#8).buf 0x00#8 = .known 0x41#8 ∧ (nodeAt .standby 0x00#8 0x41#8).buf 0xFE#8 = .unknown) ∧
    (node .standby).reg .payloadLength = .unknown ∧
    ((node .standby).setRegs { Regs.reset with payloadLength := .known 0x00#8 }).reg .fifoTxBaseAddr = .unknown :=
  ⟨⟨rfl, rfl⟩, by decide, rfl, rfl, rfl, rfl, rfl, rfl, by decide, rfl, rfl⟩

theorem witness_LeavingTransmitAborts : (node .transmit).busReady ∧ (node .transmit).cfg.codes.wf = true ∧
    (node .transmit).cfg.codes.code .standby = modeField 0x81#8 ∧ (node .transmit).dev.mode = .transmit ∧
    (0x81#8 : Byte).getLsbD 7 = (node .transmit).dev.lr ∧ (node .transmit).dev.txJob = some [0x41#8, 0x42#8] ∧
    ((node .transmit).setTxJob none).dev.txJob = none :=
  ⟨⟨rfl, rfl⟩, by decide, rfl, rfl, rfl, rfl, rfl⟩

/-! Requests. -/

theorem witness_operable (m : Mode) : (node m).operable :=
  ⟨rfl, rfl, rfl, rfl, show Params.default.wf = true by decide, rfl, rfl⟩

theorem witness_RequestStartsAtStepOne : (node .standby).ctl.op = .idle ∧ (node .standby).ctl.life = .ready ∧
    State.reset.ctl.op = .idle ∧ State.reset.ctl.life = .uninit ∧ frfNumber State.reset.cfg.freqHz < 2 ^ 24 := by decide

theorem witness_RequestGuards : ((node .standby).setLife .halted).ctl.op = .idle ∧
    ((node .standby).setLife .halted).ctl.life = .halted ∧ (node .standby).ctl.life ≠ .uninit ∧
    State.reset.ctl.life ≠ .ready ∧ (node .standby).ctl.life = .ready := by decide

theorem witness_RequestsAreHeldWhileRunning :
    ((node .standby).start (.send [])).ctl.op = .running (.send []) 1 0 Locals.blank ∧
    (((node .standby).start (.send [])).setCalls [.decode []]).calls = [.decode []] := ⟨rfl, rfl⟩

theorem witness_ResetCompletes : (node .transmit).ctl.op = .idle ∧ (node .transmit).calls = [] ∧
    (node .transmit).ctl.life = .ready ∧ State.reset.ctl.life = .uninit := ⟨rfl, rfl, rfl, rfl⟩

/-- With the expected identity, and with another (P1, P2). -/
theorem witness_InitRuns : State.reset.operable ∧ State.reset.ctl.life = .uninit ∧
    frfNumber State.reset.cfg.freqHz < 2 ^ 24 ∧ State.reset.cfg.devId = State.reset.cfg.chipId ∧
    ({ State.reset with cfg := { Params.default with devId := 0x00#8 } } : State).operable ∧
    ({ Params.default with devId := 0x00#8 } : Params).devId ≠ Params.default.chipId :=
  ⟨⟨rfl, rfl, rfl, rfl, by decide, rfl, rfl⟩, rfl, by decide, rfl, ⟨rfl, rfl, rfl, rfl, by decide, rfl, rfl⟩, by decide⟩

theorem witness_SetModeIsOneWrite : (node .standby).operable ∧ (node .standby).ctl.life = .ready ∧
    (node .standby).dev.lr = true ∧ (node .standby).dev.mode = .standby ∧
    ∃ u, exec (.wrOpMode (opModeByte ModeCodes.default .standby)) ((node .standby).start (.setMode .standby)) = .next u ∧
      u.stopped = false :=
  ⟨witness_operable _, rfl, rfl, rfl, _, rfl, rfl⟩

theorem witness_SendTooLargeTouchesNothing : (node .receiveContinuous).ctl.op = .idle ∧
    (node .receiveContinuous).calls = [] ∧ (node .receiveContinuous).ctl.life = .ready ∧
    255 < (List.replicate 256 0x41#8).length ∧ (List.replicate 255 0x41#8).length ≤ 255 :=
  ⟨rfl, rfl, rfl, by rw [List.length_replicate]; decide, by rw [List.length_replicate]⟩

theorem witness_SendTransmitsThePayload : (∀ m, (node m).operable ∧ (node m).ctl.life = .ready ∧ (node m).dev.lr = true ∧
      (node m).reg .fifoTxBaseAddr = .known 0x00#8) ∧ (node .transmit).dev.mode ≠ .sleep ∧
    (List.replicate 255 0x41#8).length ≤ 255 :=
  ⟨fun _ => ⟨witness_operable _, rfl, rfl, rfl⟩, by decide, by rw [List.length_replicate]⟩

/-- A bound of 1, and no bound. -/
theorem witness_SendTimesOutOrPollsForEver : (node .standby).operable ∧ (node .standby).ctl.life = .ready ∧
    (node .standby).dev.lr = true ∧ (node .standby).dev.mode ≠ .sleep ∧
    (node .standby).reg .fifoTxBaseAddr = .known 0x00#8 ∧ (node .standby).dev.txDone = false ∧
    (node .standby).cfg.txPollBound = none ∧
    ({ node .standby with cfg := { Params.default with txPollBound := some 1 } } : State).operable :=
  ⟨witness_operable _, rfl, rfl, by decide, rfl, rfl, rfl, ⟨rfl, rfl, rfl, rfl, by decide, rfl, rfl⟩⟩

theorem witness_TryReceiveWithoutAFrame : (node .receiveContinuous).operable ∧ (node .receiveContinuous).ctl.life = .ready ∧
    (node .receiveContinuous).dev.lr = true ∧ (node .receiveContinuous).dev.mode = .receiveContinuous ∧
    (node .receiveContinuous).dev.rxDone = false := ⟨witness_operable _, rfl, rfl, rfl, rfl⟩

/-- V-F15: three bytes delivered round the buffer's end. -/
def received : State := deliver [0x41#8, 0x42#8, 0x43#8] 0xFE#8 (node .receiveContinuous)

theorem witness_TryReceiveReturnsTheFrame : received.operable ∧ received.ctl.life = .ready ∧ received.dev.lr = true ∧
    received.dev.mode = .receiveContinuous ∧ received.dev.rxDone = true ∧ received.reg .rxNbBytes = .known 0x03#8 ∧
    received.reg .fifoRxCurrentAddr = .known 0xFE#8 ∧
    ∀ i x, [0x41#8, 0x42#8, 0x43#8][i]? = some x → received.buf (0xFE#8 + BitVec.ofNat 8 i) = .known x := by
  refine ⟨⟨rfl, rfl, rfl, rfl, by decide, rfl, rfl⟩, rfl, rfl, rfl, rfl, rfl, rfl, ?_⟩
  intro i x h
  match i with
  | 0 => cases h; rfl
  | 1 => cases h; rfl
  | 2 => cases h; rfl
  | i + 3 => simp at h

/-! The codec. -/

theorem witness_EncodeAnswers : ({ recordC10 with pressure := .nonFinite } : TelemetryRecord).pressure = .nonFinite ∧
    recordC10.temperature = .finite (mkRat 25305 1000) ∧ recordC10.humidity = .finite (mkRat 612 10) ∧
    recordC10.pressure = .finite (mkRat 10084 100) ∧ frameC10.length = 25 := by decide

theorem witness_DecodeOfEncodedRecord :
    encodeRecord ⟨[], .finite (mkRat (-4) 1000), .finite 0, .finite (mkRat 99999995 1000), 0xFFFFFFFF#32⟩ 255 =
      .encoded (ts [0x2D#8, 0x30#8, 0x2E#8, 0x30#8, 0x30#8, 0x2C#8, 0x30#8, 0x2E#8, 0x30#8, 0x30#8, 0x2C#8,
        0x31#8, 0x30#8, 0x30#8, 0x30#8, 0x30#8, 0x30#8, 0x2E#8, 0x30#8, 0x30#8, 0x2C#8,
        0x34#8, 0x32#8, 0x39#8, 0x34#8, 0x39#8, 0x36#8, 0x37#8, 0x32#8, 0x39#8, 0x35#8]) := by decide

theorem witness_EncodedFramesAreWellFormed : encodeRecord recordC10 25 = .encoded frameC10 ∧
    split (upToTerminator [0x58#8, 0x58#8, 0x2C#8, 0x31#8]) = [[0x58#8, 0x58#8], [0x31#8]] ∧
    ([0x58#8, 0x58#8] : List Byte) ≠ [0x54#8, 0x53#8] := by decide

/-- Each check's frame: another tag, two and five fields behind the tag, a field that is no number, and good ones. -/
theorem witness_DecodeAnswers : split (upToTerminator []) = [[]] ∧
    split (upToTerminator (ts [0x31#8, 0x2C#8, 0x32#8])) = [[0x54#8, 0x53#8], [0x31#8], [0x32#8]] ∧
    split (upToTerminator (ts [0x31#8, 0x2C#8, 0x2C#8, 0x33#8])) = [[0x54#8, 0x53#8], [0x31#8], [], [0x33#8]] ∧
    parseNum [] = none ∧ parseNum [0x31#8] = some 1 ∧ parseU32 [0x34#8] = some 4#32 ∧
    State.reset.cfg.parseFailPolicy = .reject ∧ ({ Params.default with parseFailPolicy := .zero } : Params).parseFailPolicy = .zero := by
  decide

theorem witness_FieldsAreCutAtCommas : (0x00#8 : Byte) ∉ frameC10 := by decide

/-! Events and steps. -/

theorem witness_TxCompleteEvent : (node .transmit).fault = none ∧ (node .transmit).refusal = none ∧
    frfNumber (node .transmit).cfg.freqHz < 2 ^ 24 ∧
    ((node .transmit).setTurn .txComplete).turn = .txComplete ∧ (node .transmit).dev.mode = .transmit ∧
    (node .transmit).dev.txJob = some [0x41#8, 0x42#8] ∧ (node .standby).dev.mode ≠ .transmit ∧
    ((node .transmit).setTxJob none).dev.txJob = none := by decide

theorem witness_RxDeliverEvent : (node .receiveContinuous).fault = none ∧ (node .receiveContinuous).refusal = none ∧
    frfNumber (node .receiveContinuous).cfg.freqHz < 2 ^ 24 ∧
    ((node .receiveContinuous).setTurn .rxDeliver).turn = .rxDeliver ∧
    (node .receiveContinuous).dev.mode = .receiveContinuous ∧ (node .receiveContinuous).dev.lr = true ∧
    (node .standby).dev.mode ≠ .receiveContinuous ∧
    ({ node .receiveContinuous with cfg := { Params.default with rxPlacement := .base } } : State).cfg.rxPlacement = .base ∧
    (node .receiveContinuous).reg .fifoRxBaseAddr = .known 0x00#8 := by decide

theorem witness_StepRunsTheDecodedInstruction : State.reset.fault = none ∧ State.reset.refusal = none ∧
    frfNumber State.reset.cfg.freqHz < 2 ^ 24 ∧
    State.reset.turn = .controller ∧ State.reset.calls = [] ∧ State.reset.ctl.op = .idle ∧ State.reset.busCalls = [] ∧
    (State.reset.setBusCalls [.raw [0x42#8, 0x00#8]]).busCalls = [.raw [0x42#8, 0x00#8]] ∧
    decode State.reset.cfg.regMap [0x42#8, 0x00#8] = .instr (.rdVersion 0x00#8) [] ∧
    (State.reset.setPort [.init]).port = [.init] ∧ (State.reset.setCalls [.decode []]).calls = [.decode []] := by decide

theorem witness_ControllerAccessesRunTheInstruction : State.reset.cfg.regMap.wf = true := by decide

theorem witness_StoppedNodeTakesNoStep : (State.reset.setFault (some .fifoInSleep)).fault = some .fifoInSleep ∧
    (State.reset.setRefusal (some .reservedMode)).fault = none ∧
    (State.reset.setRefusal (some .reservedMode)).refusal = some .reservedMode := ⟨rfl, rfl, rfl⟩

theorem witness_ReadTransactionsFrame (r : RegName) : ∃ t, exec (Instr.ofRead 0x00#8 r) (nodeAt .standby 0x00#8 0x41#8) = .next t ∧
    t.fault = none := by
  cases r <;> exact ⟨_, rfl, rfl⟩

/-- Every write answers a next state; outside FIFO, OP_MODE and the refused ones neither mark is set. -/
theorem witness_WriteTransactionsFrame (r : RegName) :
    ∃ t, exec (Instr.ofWrite 0x81#8 r) (nodeAt .standby 0x00#8 0x41#8) = .next t ∧ t.fault = none := by
  cases r <;> exact ⟨_, rfl, rfl⟩

theorem witness_HostRequestsFrame (req : Request) (c : CodecCall) :
    (∃ t, exec req.toInstr ((node .standby).start (.send [])) = .next t) ∧ (∃ t, exec (c.toInstr 96) State.reset = .next t) ∧
    (∃ t, exec Request.init.toInstr State.reset = .next t) ∧ State.reset.ctl.op = .idle :=
  ⟨by cases req <;> exact ⟨_, rfl⟩, by cases c <;> exact ⟨_, rfl⟩, ⟨_, rfl⟩, rfl⟩

theorem witness_OnlyEventsSetDoneFlags : ∃ t, exec (.wrIrqFlags 0x08#8) (flagged .standby) = .next t ∧ t.dev.rxDone = true ∧
    ∀ v, Instr.wrFifo 0x08#8 ≠ .wrIrqFlags v := ⟨_, rfl, rfl, fun _ h => by cases h⟩

/-- What clears a flag: `tryReceive` at step 3, a direct access, and the end of `reset`; and each event that sets one. -/
theorem witness_OnlyEventsSetDoneFlags_step : (flagged .receiveContinuous).cfg.regMap.wf = true ∧
    (∃ t, step ((flagged .receiveContinuous).goto (.tryReceive 9) 3 0 Locals.blank) = .next t ∧ t.dev.rxDone = false ∧
      t.dev.txDone = true) ∧
    (∃ t, step ((flagged .standby).setBusCalls [.raw [0x92#8, 0x08#8]]) = .next t ∧ t.dev.txDone = false) ∧
    (∃ t, step ((flagged .standby).goto .reset 5 0 Locals.blank) = .next t ∧ t.dev.rxDone = false) ∧
    (∃ t, step ((node .transmit).setTurn .txComplete) = .next t ∧ t.dev.txDone = true) ∧
    ∃ t, step ((node .receiveContinuous).setTurn .rxDeliver) = .next t ∧ t.dev.rxDone = true :=
  ⟨by decide, ⟨_, rfl, rfl, rfl⟩, ⟨_, rfl, rfl⟩, ⟨_, rfl, rfl⟩, ⟨_, rfl, rfl⟩, ⟨_, rfl, rfl⟩⟩

theorem witness_FramerWritesNoConfiguration : (node .standby).cfg.regMap.wf = true ∧
    (((node .standby).start (.send [])).goto (.send []) 2 0 Locals.blank).ctl.op = .running (.send []) 2 0 Locals.blank ∧
    ∃ t, controllerTurn (((node .standby).start (.send [])).goto (.send []) 2 0 Locals.blank) = .next t :=
  ⟨by decide, rfl, _, rfl⟩

theorem witness_RunningOperationsNeverRefuse : (node .standby).cfg.regMap.wf = true ∧
    (node .standby).cfg.busReliable = true ∧
    ((node .standby).start (.setMode .sleep)).ctl.op = .running (.setMode .sleep) 1 0 Locals.blank ∧
    ∃ t, controllerTurn ((node .standby).start (.setMode .sleep)) = .next t :=
  ⟨by decide, rfl, rfl, _, rfl⟩

theorem witness_StepKeepsTheParameters : ∃ t, step State.reset = .next t := ⟨_, rfl⟩

theorem witness_StepKeepsTheBufferCanonical : (nodeAt .standby 0xFF#8 0xAA#8).bufferOk ∧
    ∃ t, step ((nodeAt .standby 0xFF#8 0xAA#8).withFetchWord 16 0x80AA) = .next t := ⟨rfl, _, rfl⟩

theorem witness_StepKeepsTheModeAndThePendingFrame : (node .transmit).modeOk ∧
    ∃ t, step ((node .transmit).setTurn .txComplete) = .next t := ⟨⟨by decide, by decide⟩, _, rfl⟩

theorem witness_StepKeepsFramesShort : (node .transmit).framesOk ∧
    ∃ t, step ((node .transmit).setTurn .txComplete) = .next t := by
  refine ⟨⟨fun f h => ?_, fun e h => ?_⟩, _, rfl⟩
  · cases h
    decide
  · cases h

theorem witness_StepKeepsTheControllerPosition : State.reset.positionOk ∧ State.reset.fault = none ∧
    (∃ t, step State.reset = .next t) ∧ ((node .standby).start (.send [0x41#8])).positionOk ∧
    ∃ t, step ((node .standby).start (.send [0x41#8])) = .next t :=
  ⟨rfl, rfl, ⟨_, rfl⟩, ⟨by decide, by decide, by decide, rfl⟩, ⟨_, rfl⟩⟩

end Sys2Proof.Tests
end

section
/-! SUPPORT. What one step can do to the radio (the parameters, the device and the emissions), said once for every agent and
every instruction, so that an invariant of the device is one short case analysis over `RadioMove`. -/

namespace Sys2Proof.Machine

/-- The two states agree on the parameters, the device and the emissions; controller, queues, marks and draws may differ. -/
structure State.SameRadio (s t : State) : Prop where
  cfg : t.cfg = s.cfg
  dev : t.dev = s.dev
  air : t.air = s.air

theorem State.SameRadio.refl (s : State) : s.SameRadio s := ⟨rfl, rfl, rfl⟩

theorem State.SameRadio.trans {s t u : State} (h : s.SameRadio t) (k : t.SameRadio u) : s.SameRadio u :=
  ⟨k.cfg.trans h.cfg, k.dev.trans h.dev, k.air.trans h.air⟩

/-- The ways the radio moves: a register's own rule goes through (R79 to R116), the reset line moves or the device is put in
its reset state (R117), or a device event takes place (R123, R125). -/
inductive RadioMove (s : State) : State → Prop where
  | stay : RadioMove s s
  | read {r : RegName} {v : Byte} {u : State} (h : readRule r s = .done (v, u)) : RadioMove s u
  | write {r : RegName} {v : Byte} {u : State} (h : writeRule r v s = .done u) : RadioMove s u
  | line (l : Line) : RadioMove s (s.setLine l)
  | reset : RadioMove s (s.setDev Dev.reset)
  | txComplete : RadioMove s (txComplete s)
  | rxDeliver : RadioMove s (rxDeliver s)

/-- A move of the radio, before and after which only the controller, the queues, the marks and the draws change. -/
def RadioStep (s t : State) : Prop := ∃ q u, s.SameRadio q ∧ RadioMove q u ∧ u.SameRadio t

theorem RadioStep.of_same {s t : State} (h : s.SameRadio t) : RadioStep s t := ⟨s, s, .refl s, .stay, h⟩

theorem RadioStep.of_move {s t : State} (h : RadioMove s t) : RadioStep s t := ⟨s, t, .refl s, h, .refl t⟩

theorem RadioStep.after {s q t : State} (h : s.SameRadio q) (k : RadioStep q t) : RadioStep s t := by
  obtain ⟨q', u, hq, hm, hu⟩ := k
  exact ⟨q', u, h.trans hq, hm, hu⟩

theorem RadioStep.before {s t u : State} (h : RadioStep s t) (k : t.SameRadio u) : RadioStep s u := by
  obtain ⟨q, v, hq, hm, hv⟩ := h
  exact ⟨q, v, hq, hm, hv.trans k⟩

theorem State.sameRadio_received (s : State) (v : Byte) : s.SameRadio (s.received v) := by
  rw [(State.received_frame s v).1]
  exact ⟨rfl, rfl, rfl⟩

/-- A read transaction moves the radio as its register's rule does, or not at all (R74, R76, R149). -/
theorem transRead_radioStep {r : RegName} {s t : State} (h : transRead (readRule r) s = .next t) : RadioStep s t := by
  rcases transRead_cases (readRule r) s with ⟨-, e⟩ | ⟨-, v, u, hr, e⟩ | ⟨-, f, -, e⟩ | ⟨-, x, -, e⟩ <;>
    cases e.symm.trans h
  case inr.inl => exact .before (.of_move (.read hr)) (State.sameRadio_received u v)
  all_goals exact .of_same ⟨rfl, rfl, rfl⟩

/-- A byte that an unreliable bus alters or loses still moves the radio as the register's rule does, or not at all (R77). -/
theorem carryWrite_radioStep {r : RegName} {v : Byte} {s t : State} (h : carryWrite (writeRule r) v s = .done t) :
    RadioStep s t := by
  rcases carryWrite_cases (writeRule r) v s with ⟨-, e⟩ | ⟨-, -, e⟩ | ⟨-, -, e⟩ | ⟨-, -, e⟩ <;> rw [e] at h
  · exact .of_move (.write h)
  · exact .after (q := s.tick) ⟨rfl, rfl, rfl⟩ (.of_move (.write h))
  · exact .after (q := s.tick.tick) ⟨rfl, rfl, rfl⟩ (.of_move (.write h))
  · cases h
    exact .of_same ⟨rfl, rfl, rfl⟩

/-- A write transaction moves the radio as its register's rule does, or not at all (R75, R76, R77, R149). -/
theorem transWrite_radioStep {r : RegName} {v : Byte} {s t : State} (h : transWrite (writeRule r) v s = .next t) :
    RadioStep s t := by
  rcases transWrite_cases (writeRule r) v s with ⟨-, e⟩ | ⟨-, u, hw, e⟩ | ⟨-, f, -, e⟩ | ⟨-, x, -, e⟩ <;>
    cases e.symm.trans h
  case inr.inl => exact .before (carryWrite_radioStep hw) ⟨rfl, rfl, rfl⟩
  all_goals exact .of_same ⟨rfl, rfl, rfl⟩

/-- A request at the port only moves the controller, the port or a mark (R151, R152). -/
theorem offer_sameRadio {req : Request} {bad : Option Refusal} {s t : State} (h : offer req bad s = .next t) :
    s.SameRadio t := by
  rcases offer_cases req bad s with ⟨-, e⟩ | ⟨-, -, e⟩ | ⟨-, -, x, -, e⟩ | ⟨-, -, -, e⟩ <;> cases e.symm.trans h <;>
    exact ⟨rfl, rfl, rfl⟩

/-- Every instruction is at most one move of the radio (R45). -/
theorem exec_radioStep {i : Instr} {s t : State} (h : exec i s = .next t) : RadioStep s t := by
  cases hi : i.transaction? with
  | some x =>
    obtain ⟨w, r, b⟩ := x
    rw [exec_transaction hi] at h
    cases w with
    | true => exact transWrite_radioStep h
    | false => exact transRead_radioStep h
  | none =>
    rcases request_or_call hi with ⟨req, rfl⟩ | ⟨c, n, rfl⟩
    · rw [exec_toInstr] at h
      exact .of_same (offer_sameRadio h)
    · obtain ⟨r, e⟩ := exec_codecCall c n s
      cases e.symm.trans h
      exact .of_same ⟨rfl, rfl, rfl⟩

theorem TurnEffect.radioStep {q u : State} (h : TurnEffect q u) : RadioStep q u := by
  rcases h with rfl | ⟨i, h⟩ | ⟨f, rfl⟩ | ⟨r, rfl⟩ | rfl | rfl | rfl
  · exact .of_same (.refl u)
  · exact exec_radioStep h
  · exact .of_same ⟨rfl, rfl, rfl⟩
  · exact .of_same ⟨rfl, rfl, rfl⟩
  · exact .of_move (.line .asserted)
  · exact .of_move (.line .released)
  · exact .of_move .reset

/-- A turn of the controller is at most one move of the radio (R31, R32, R45). -/
theorem controllerTurn_radioStep {s t : State} (h : controllerTurn s = .next t) : RadioStep s t := by
  rcases controllerTurn_cases s with e | ⟨cs, bs, ps, u, c, he, e⟩ <;> cases e.symm.trans h
  exact .before (.after (q := ((s.setCalls cs).setBusCalls bs).setPort ps) ⟨rfl, rfl, rfl⟩ he.radioStep) ⟨rfl, rfl, rfl⟩

/-- The host moves no part of the radio, a device event moves nothing else (R12). -/
theorem agentMove_radioStep {a : Turn} {s t : State} (h : agentMove a s = .next t) : RadioStep s t := by
  cases a with
  | controller => exact controllerTurn_radioStep h
  | txComplete => cases h; exact .of_move .txComplete
  | rxDeliver => cases h; exact .of_move .rxDeliver
  | hostRequest => cases h; exact .of_same ⟨rfl, rfl, rfl⟩
  | hostCodecCall => cases h; exact .of_same ⟨rfl, rfl, rfl⟩
  | hostTakesResult => cases h; exact .of_same ⟨rfl, rfl, rfl⟩

/-- Every step is at most one move of the radio (R45, R50). -/
theorem step_radioStep {s t : State} (h : step s = .next t) : RadioStep s t := by
  obtain ⟨-, -, -, u, hu, rfl⟩ := step_next h
  exact .before (agentMove_radioStep hu) ⟨rfl, rfl, rfl⟩

/-- An invariant that sees only the radio and survives each of its moves survives every step. -/
theorem step_keeps_of_radioMove {P : State → Prop} (hsame : ∀ {s t}, s.SameRadio t → P s → P t)
    (hmove : ∀ {s t}, RadioMove s t → P s → P t) {s t : State} (hs : P s) (h : step s = .next t) : P t := by
  obtain ⟨q, u, hq, hm, hu⟩ := step_radioStep h
  exact hsame hu (hmove hm (hsame hq hs))

/-! ## What the moves are -/

theorem readStored_done {r : StoreReg} {s t : State} {v : Byte} (h : readStored r s = .done (v, t)) :
    ∃ n, t = s.setFree n := by
  have hv : s.valueOf (s.reg r) = (v, t) := Acc.done.inj h
  have hframe := (State.valueOf_frame s (s.reg r)).1
  rw [hv] at hframe
  exact ⟨t.free, hframe⟩

/-- A read only draws; the FIFO read also steps the pointer (R79 to R97). -/
theorem readRule_done {r : RegName} {s t : State} {v : Byte} (h : readRule r s = .done (v, t)) :
    (∃ n, t = s.setFree n) ∨ ∃ n p, t = (s.setFree n).setReg .fifoAddrPtr p := by
  cases r with
  | fifo =>
    simp only [readRule, readFifo] at h
    split at h <;> cases h
    rename_i p _
    exact .inr ⟨_, p + 1, by rw [← (State.valueOf_frame s (s.buf p)).1]⟩
  | opMode =>
    simp only [readRule, readOpMode] at h
    cases hm : s.dev.mid with
    | known m => rw [hm] at h; cases h; exact .inl ⟨s.free, rfl⟩
    | unknown => rw [hm] at h; cases h; exact .inl ⟨s.free + 1, rfl⟩
  | irqFlags => cases h; exact .inl ⟨s.free + 1, rfl⟩
  | version => cases h; exact .inl ⟨s.free, rfl⟩
  | _ => exact .inl (readStored_done h)

theorem writeConfig_done {q : StoreReg} {s t : State} {v : Byte} (h : writeConfig q v s = .done t) : t = s.setReg q v := by
  unfold writeConfig at h
  split at h <;> cases h
  rfl

/-- A write other than that of OP_MODE stores into one register, or into the buffer at the pointer, which then steps, or
clears flags (R98, R100 to R116). -/
theorem writeRule_done {r : RegName} {s t : State} {v : Byte} (hr : r ≠ .opMode) (h : writeRule r v s = .done t) :
    (∃ q, t = s.setReg q v) ∨ (∃ p, t = (s.setBuf p v).setReg .fifoAddrPtr (p + 1)) ∨ t = s.clearFlags v := by
  cases r with
  | opMode => exact absurd rfl hr
  | fifo =>
    simp only [writeRule, writeFifo] at h
    split at h <;> cases h
    exact .inr (.inl ⟨_, rfl⟩)
  | fifoAddrPtr => cases h; exact .inl ⟨.fifoAddrPtr, rfl⟩
  | irqFlags => cases h; exact .inr (.inr rfl)
  | payloadLength =>
    simp only [writeRule, writeLength] at h
    split at h <;> cases h
    exact .inl ⟨.payloadLength, rfl⟩
  | fifoRxCurrentAddr => cases h
  | rxNbBytes => cases h
  | version => cases h
  | _ => exact .inl ⟨_, writeConfig_done h⟩

/-- All the event TxComplete can do (R123). -/
theorem txComplete_cases (s : State) : txComplete s = s ∨
    ∃ f, s.dev.mode = .transmit ∧ s.dev.txJob = some f ∧ txComplete s =
      (s.setAir (s.air ++ [.full f])).setDev { s.dev with txJob := none, txDone := true, mode := .standby } := by
  unfold txComplete
  split
  · rename_i f hm hj
    exact .inr ⟨f, hm, hj, rfl⟩
  · exact .inl rfl

/-- All the event RxDeliver can do (R125). -/
theorem rxDeliver_cases (s : State) : rxDeliver s = s ∨
    ∃ start n, rxEnabled s = true ∧ rxDeliver s = deliver (offeredFrame s) start (s.setFree n) := by
  unfold rxDeliver
  split
  · rename_i he
    refine .inr ⟨(placeOf s.tick).1, (placeOf s.tick).2.free, he, ?_⟩
    have hp : (placeOf s.tick).2 = s.setFree (placeOf s.tick).2.free := by
      unfold placeOf
      split
      · rfl
      · exact (State.valueOf_frame s.tick _).1
    rw [← hp]
  · exact .inl rfl

end Sys2Proof.Machine
end

section
/-! O58: no frame longer than 255 bytes is ever pending or emitted. A frame becomes pending only in TxStart, whose length is
one byte (R122); it is emitted whole by TxComplete (R123) or cut short by TxAbort (R124). -/

namespace Sys2Proof.Machine

/-- The invariant sees the pending frame and the emissions only. -/
theorem State.framesOk_congr {s t : State} (hj : t.dev.txJob = s.dev.txJob) (ha : t.air = s.air) (h : s.framesOk) :
    t.framesOk := by
  unfold State.framesOk
  rw [hj, ha]
  exact h

/-- Dropping the pending frame keeps the invariant when what is emitted with it, if anything, is short enough. -/
theorem State.framesOk_emit {s t : State} {e : List Emission} (h : s.framesOk)
    (he : ∀ x ∈ e, (Emission.bytes x).length ≤ Config.maxFrame) (hj : t.dev.txJob = none) (ha : t.air = s.air ++ e) :
    t.framesOk := by
  obtain ⟨-, hair⟩ := h
  refine ⟨fun f hf => ?_, fun x hx => ?_⟩
  · rw [hj] at hf
    cases hf
  · rw [ha] at hx
    exact (List.mem_append.mp hx).elim (hair x) (he x)

/-- A frame's first bytes are no more than the frame (R124). -/
theorem txAbort_keeps_framesOk {s : State} (h : s.framesOk) : (txAbort s).framesOk := by
  rcases txAbort_cases s with ⟨-, e⟩ | ⟨f, em, hj, hem, e⟩ <;> rw [e]
  · exact h
  · refine State.framesOk_emit h (fun x hx => ?_) rfl rfl
    rcases hem with rfl | ⟨j, rfl⟩
    · cases hx
    · cases List.mem_singleton.mp hx
      calc (f.take j).length ≤ f.length := List.length_take_le' j f
        _ ≤ Config.maxFrame := h.1 f hj

/-- A captured frame has the length of PAYLOAD_LENGTH, which is one byte (R122). -/
theorem txStart_keeps_framesOk {s t : State} (h : s.framesOk) (ht : txStart s = .done t) : t.framesOk := by
  rcases txStart_cases s with ⟨-, e⟩ | ⟨n, -, -, e⟩ | ⟨n, b, -, -, e⟩ <;> cases e.symm.trans ht
  obtain ⟨hlen, hstate, -⟩ := captureFrame_frame n.toNat b s
  refine ⟨fun f hf => ?_, ?_⟩
  · cases hf
    rw [hlen]
    exact Nat.le_of_lt_succ n.isLt
  · rw [hstate]
    exact h.2

theorem modeWrite_keeps_framesOk {v : Byte} {s t : State} (h : s.framesOk) (ht : modeWrite v s = .done t) : t.framesOk := by
  obtain ⟨m, -, -, -, -, heff⟩ := modeWrite_done ht
  have hset : (s.setMode (lrField v) (midField v) m).framesOk := State.framesOk_congr rfl rfl h
  rcases modeEffect_done heff with ⟨-, -, rfl⟩ | ⟨-, -, hstart⟩ | ⟨-, rfl⟩
  · exact txAbort_keeps_framesOk hset
  · exact txStart_keeps_framesOk hset hstart
  · exact hset

theorem txComplete_keeps_framesOk {s : State} (h : s.framesOk) : (txComplete s).framesOk := by
  rcases txComplete_cases s with e | ⟨f, -, hj, e⟩ <;> rw [e]
  · exact h
  · refine State.framesOk_emit (e := [.full f]) h (fun x hx => ?_) rfl rfl
    cases List.mem_singleton.mp hx
    exact h.1 f hj

theorem radioMove_keeps_framesOk {s t : State} (hm : RadioMove s t) (h : s.framesOk) : t.framesOk := by
  cases hm with
  | stay => exact h
  | read hr =>
    rcases readRule_done hr with ⟨n, rfl⟩ | ⟨n, p, rfl⟩ <;> exact State.framesOk_congr rfl rfl h
  | @write r v _ hw =>
    by_cases hr : r = .opMode
    · subst hr
      exact modeWrite_keeps_framesOk h hw
    · rcases writeRule_done hr hw with ⟨q, rfl⟩ | ⟨p, rfl⟩ | rfl <;> exact State.framesOk_congr rfl rfl h
  | line l => exact State.framesOk_congr rfl rfl h
  | reset => exact State.framesOk_emit (e := []) h (by simp) rfl (List.append_nil _).symm
  | txComplete => exact txComplete_keeps_framesOk h
  | rxDeliver =>
    rcases rxDeliver_cases s with e | ⟨start, n, -, e⟩ <;> rw [e]
    · exact h
    · exact State.framesOk_congr rfl rfl h

/-- Settles O58: the invariant sees only the radio, and each of its moves keeps it. -/
theorem stepKeepsFramesShort : Obligations.StepKeepsFramesShort := by
  unfold Obligations.StepKeepsFramesShort
  intro s t hs h
  exact step_keeps_of_radioMove (fun k => State.framesOk_congr (congrArg Dev.txJob k.dev) k.air)
    radioMove_keeps_framesOk hs h

end Sys2Proof.Machine
end

section
/-! O55, O56, O57: every step keeps the parameters, the buffer's canonical form, and the agreement of mode and pending frame.
What a step can do to the device is said once (`DevMove`), and each invariant is a case analysis over it. -/

namespace Sys2Proof.Machine

/-! ## The mode write as one update -/

/-- An abort drops the pending frame, if any, emits and draws (R124). -/
theorem txAbort_eq (s : State) : ∃ a n, txAbort s = ((s.setTxJob none).setAir a).setFree n := by
  rcases txAbort_cases s with ⟨hj, e⟩ | ⟨f, em, -, -, e⟩ <;> rw [e]
  · refine ⟨s.air, s.free, ?_⟩
    have hdev : { s.dev with txJob := none } = s.dev := by rw [← hj]
    change s = { s with dev := { s.dev with txJob := none } }
    rw [hdev]
  · exact ⟨_, _, rfl⟩

/-- A start that goes through makes a frame pending and draws (R122). -/
theorem txStart_done {s t : State} (h : txStart s = .done t) : ∃ f n, t = (s.setTxJob (some f)).setFree n := by
  rcases txStart_cases s with ⟨-, e⟩ | ⟨n, -, -, e⟩ | ⟨n, b, -, -, e⟩ <;> cases e.symm.trans h
  refine ⟨(captureFrame n.toNat b s).1, (captureFrame n.toNat b s).2.free, ?_⟩
  rw [(captureFrame_frame n.toNat b s).2.1]
  rfl

/-- An OP_MODE write that goes through sets the three fields of OP_MODE, and with them the pending frame: the frame fits the
new mode, or it is kept by a write that neither enters nor leaves Transmit (R120, R122, R124). -/
theorem modeWrite_update {v : Byte} {s t : State} (h : modeWrite v s = .done t) :
    ∃ m j a n, t = ((s.setDev { s.dev with
        lr := lrField v, mid := .known (midField v), mode := m, txJob := j }).setAir a).setFree n ∧
      (modeActive m = true → lrField v = true) ∧
      ((m = .transmit ↔ j.isSome = true) ∨ (s.dev.mode = .transmit ↔ m = .transmit) ∧ j = s.dev.txJob) := by
  obtain ⟨m, -, -, hactive, -, heff⟩ := modeWrite_done h
  rcases modeEffect_done heff with ⟨-, hm, rfl⟩ | ⟨-, hm, hstart⟩ | ⟨hm, rfl⟩
  · obtain ⟨a, n, e⟩ := txAbort_eq (s.setMode (lrField v) (midField v) m)
    exact ⟨m, none, a, n, e, hactive, .inl (by simp [hm])⟩
  · obtain ⟨f, n, rfl⟩ := txStart_done hstart
    exact ⟨m, some f, s.air, n, rfl, hactive, .inl (by simp [hm])⟩
  · exact ⟨m, s.dev.txJob, s.air, s.free, rfl, hactive, .inr ⟨hm, rfl⟩⟩

/-! ## What a step can do to the device -/

/-- The ways the device changes: registers, flags and the reset line; a FIFO write (R98); an OP_MODE write (R120); the reset
(R117); the events TxComplete (R123) and RxDeliver (R125). -/
inductive DevMove (d : Dev) : Dev → Prop where
  | registers (g : Regs) (tx rx : Bool) (l : Line) :
    DevMove d { d with regs := g, txDone := tx, rxDone := rx, resetLine := l }
  | store (p v : Byte) (g : Regs) : DevMove d { d with fifo := d.fifo.write p.toNat v, regs := g }
  | mode {lr : Bool} {m : Mode} {j : Option (List Byte)} (mid : Cell 4) (hlr : modeActive m = true → lr = true)
    (hj : (m = .transmit ↔ j.isSome = true) ∨ (d.mode = .transmit ↔ m = .transmit) ∧ j = d.txJob) :
    DevMove d { d with lr := lr, mid := mid, mode := m, txJob := j }
  | reset : DevMove d Dev.reset
  | sent : DevMove d { d with txJob := none, txDone := true, mode := .standby }
  | received (p : Byte) (f : List Byte) (g : Regs) :
    DevMove d { d with fifo := d.fifo.writeBytes p f, regs := g, rxDone := true }

theorem DevMove.stay (d : Dev) : DevMove d d := .registers d.regs d.txDone d.rxDone d.resetLine

/-- A move of the radio is a move of the device, and writes no parameter. -/
theorem RadioMove.device {s t : State} (hm : RadioMove s t) : DevMove s.dev t.dev ∧ t.cfg = s.cfg := by
  cases hm with
  | stay => exact ⟨.stay _, rfl⟩
  | read hr =>
    rcases readRule_done hr with ⟨n, rfl⟩ | ⟨n, p, rfl⟩
    · exact ⟨.stay _, rfl⟩
    · exact ⟨.registers _ s.dev.txDone s.dev.rxDone s.dev.resetLine, rfl⟩
  | @write r v _ hw =>
    by_cases hr : r = .opMode
    · subst hr
      obtain ⟨m, j, a, n, rfl, hlr, hj⟩ := modeWrite_update hw
      exact ⟨.mode _ hlr hj, rfl⟩
    · rcases writeRule_done hr hw with ⟨q, rfl⟩ | ⟨p, rfl⟩ | rfl
      · exact ⟨.registers _ s.dev.txDone s.dev.rxDone s.dev.resetLine, rfl⟩
      · exact ⟨.store p v _, rfl⟩
      · exact ⟨.registers s.dev.regs _ _ s.dev.resetLine, rfl⟩
  | line l => exact ⟨.registers s.dev.regs s.dev.txDone s.dev.rxDone l, rfl⟩
  | reset => exact ⟨.reset, rfl⟩
  | txComplete =>
    rcases txComplete_cases s with e | ⟨f, -, -, e⟩ <;> rw [e]
    · exact ⟨.stay _, rfl⟩
    · exact ⟨.sent, rfl⟩
  | rxDeliver =>
    rcases rxDeliver_cases s with e | ⟨start, n, -, e⟩ <;> rw [e]
    · exact ⟨.stay _, rfl⟩
    · exact ⟨.received start (offeredFrame s) _, rfl⟩

/-- Every step is at most one move of the device, and writes no parameter. -/
theorem step_device {s t : State} (h : step s = .next t) : DevMove s.dev t.dev ∧ t.cfg = s.cfg := by
  obtain ⟨q, u, hq, hm, hu⟩ := step_radioStep h
  rw [hu.dev, hu.cfg, ← hq.dev, ← hq.cfg]
  exact hm.device

/-! ## The invariants -/

/-- Settles O55: a move of the device leaves the parameters alone. -/
theorem stepKeepsTheParameters : Obligations.StepKeepsTheParameters := by
  unfold Obligations.StepKeepsTheParameters
  exact fun s t h => (step_device h).2

/-- The buffer changes by a FIFO write, a reception or the reset. -/
theorem DevMove.keeps_fifo_wf {d d' : Dev} (hm : DevMove d d') (h : d.fifo.wf = true) : d'.fifo.wf = true := by
  cases hm with
  | store p v g => exact Memory.wf_write p v h
  | received p f g => exact Memory.wf_writeBytes p f h
  | reset => exact State.reset_fifo_wf
  | registers | mode | sent => exact h

/-- Settles O56: every move of the device keeps the buffer's canonical form. -/
theorem stepKeepsTheBufferCanonical : Obligations.StepKeepsTheBufferCanonical := by
  unfold Obligations.StepKeepsTheBufferCanonical
  exact fun s t hs h => (step_device h).1.keeps_fifo_wf hs

/-- A mode that neither sends nor receives asks for no pending frame and no long-range bit. -/
theorem State.modeOk_of_inactive {s : State} (hm : modeActive s.dev.mode = false) (hj : s.dev.txJob = none) : s.modeOk := by
  have hne : s.dev.mode ≠ .transmit := fun e => by simp [e, modeActive] at hm
  exact ⟨by simp [hne, hj], by simp [hm]⟩

/-- An OP_MODE write has asked for the long-range bit of an active mode, and starts or aborts as the new mode asks; TxComplete
and the reset leave Transmit and the frame together. -/
theorem DevMove.keeps_modeOk {s : State} {d : Dev} (hm : DevMove s.dev d) (h : s.modeOk) : (s.setDev d).modeOk := by
  cases hm with
  | mode mid hlr hj =>
    rcases hj with hfits | ⟨hkept, rfl⟩
    · exact ⟨hfits, hlr⟩
    · exact ⟨hkept.symm.trans h.1, hlr⟩
  | sent => exact State.modeOk_of_inactive rfl rfl
  | reset => exact State.modeOk_of_inactive rfl rfl
  | registers | store | received => exact h

/-- Settles O57: every move of the device keeps the agreement of mode and pending frame. -/
theorem stepKeepsTheModeAndThePendingFrame : Obligations.StepKeepsTheModeAndThePendingFrame := by
  unfold Obligations.StepKeepsTheModeAndThePendingFrame
  exact fun s t hs h => (step_device h).1.keeps_modeOk hs

end Sys2Proof.Machine
end

section
/-! O59, O25: the controller's position. A turn from a legal position takes the operation to a legal position or ends it: a
transaction goes on or stops the node, and the reset line moves only with the steps of the pulse. O25 is how an operation
comes to its first position. -/

namespace Sys2Proof.Machine

/-! ## An access, as the controller sees it -/

/-- The two states agree on the controller, the marks and the reset line. -/
structure State.SameControl (s t : State) : Prop where
  ctl : t.ctl = s.ctl
  fault : t.fault = s.fault
  refusal : t.refusal = s.refusal
  line : t.dev.resetLine = s.dev.resetLine

theorem State.SameControl.refl (s : State) : s.SameControl s := ⟨rfl, rfl, rfl, rfl⟩

theorem State.SameControl.trans {s t u : State} (h : s.SameControl t) (k : t.SameControl u) : s.SameControl u :=
  ⟨k.ctl.trans h.ctl, k.fault.trans h.fault, k.refusal.trans h.refusal, k.line.trans h.line⟩

/-- An access either leaves the controller, the marks and the reset line alone, or stops the node, which ends the operation
(R145, R146). -/
inductive AccessEnd (s : State) : Answer → Prop where
  | goesOn {t : State} (h : s.SameControl t) : AccessEnd s (.next t)
  | fault (f : Fault) : AccessEnd s (.next (s.faulted f))
  | refuse (r : Refusal) : AccessEnd s (.next (s.refusedFor r))

theorem readRule_sameControl {r : RegName} {s t : State} {v : Byte} (h : readRule r s = .done (v, t)) : s.SameControl t := by
  rcases readRule_done h with ⟨n, rfl⟩ | ⟨n, p, rfl⟩ <;> exact ⟨rfl, rfl, rfl, rfl⟩

theorem writeRule_sameControl {r : RegName} {s t : State} {v : Byte} (h : writeRule r v s = .done t) : s.SameControl t := by
  by_cases hr : r = .opMode
  · subst hr
    obtain ⟨m, j, a, n, rfl, -, -⟩ := modeWrite_update h
    exact ⟨rfl, rfl, rfl, rfl⟩
  · rcases writeRule_done hr h with ⟨q, rfl⟩ | ⟨p, rfl⟩ | rfl <;> exact ⟨rfl, rfl, rfl, rfl⟩

/-- A write that goes through on the bus was lost, or is the register's rule after some draws on the byte that arrives (R77). -/
theorem carryWrite_done {rule : Byte → State → Acc State} {v : Byte} {s t : State} (h : carryWrite rule v s = .done t) :
    t = s.tick ∨ ∃ n b, rule b (s.setFree n) = .done t := by
  rcases carryWrite_cases rule v s with ⟨-, e⟩ | ⟨-, -, e⟩ | ⟨-, -, e⟩ | ⟨-, -, e⟩ <;> rw [e] at h
  · exact .inr ⟨s.free, v, h⟩
  · exact .inr ⟨s.free + 1, v, h⟩
  · exact .inr ⟨s.free + 1 + 1, _, h⟩
  · cases h
    exact .inl rfl

theorem carryWrite_sameControl {r : RegName} {s t : State} {v : Byte} (h : carryWrite (writeRule r) v s = .done t) :
    s.SameControl t := by
  rcases carryWrite_done h with rfl | ⟨n, b, hw⟩
  · exact ⟨rfl, rfl, rfl, rfl⟩
  · exact .trans (t := s.setFree n) ⟨rfl, rfl, rfl, rfl⟩ (writeRule_sameControl hw)

theorem State.sameControl_received (s : State) (v : Byte) : s.SameControl (s.received v) := by
  rw [(State.received_frame s v).1]
  exact ⟨rfl, rfl, rfl, rfl⟩

theorem AccessEnd.transRead (r : RegName) (s : State) : AccessEnd s (transRead (readRule r) s) := by
  rcases transRead_cases (readRule r) s with ⟨-, e⟩ | ⟨-, v, u, hr, e⟩ | ⟨-, f, -, e⟩ | ⟨-, x, -, e⟩ <;> rw [e]
  · exact .fault _
  · exact .goesOn ((readRule_sameControl hr).trans (State.sameControl_received u v))
  · exact .fault f
  · exact .refuse x

theorem AccessEnd.transWrite (r : RegName) (v : Byte) (s : State) : AccessEnd s (transWrite (writeRule r) v s) := by
  rcases transWrite_cases (writeRule r) v s with ⟨-, e⟩ | ⟨-, u, hw, e⟩ | ⟨-, f, -, e⟩ | ⟨-, x, -, e⟩ <;> rw [e]
  · exact .fault _
  · exact .goesOn ((carryWrite_sameControl hw).trans ⟨rfl, rfl, rfl, rfl⟩)
  · exact .fault f
  · exact .refuse x

theorem AccessEnd.transUnmapped (s : State) : AccessEnd s (transUnmapped s) := by
  unfold Machine.transUnmapped
  cases s.dev.resetLine with
  | asserted => exact .fault _
  | released => exact .refuse _

/-- What the decoder reads is a transaction, an unmapped access, or nothing (R55, R59, R66, R73). -/
theorem AccessEnd.runDecoded_decode (m : RegMap) (bytes : List Byte) (s : State) :
    AccessEnd s (runDecoded (decode m bytes) s) := by
  unfold decode
  split
  · split
    · rename_i r _
      simp only [runDecoded, exec_transaction (Instr.transaction_ofTransaction _ r _)]
      split
      · exact .transWrite ..
      · exact .transRead ..
    · exact .transUnmapped s
  · exact .goesOn (.refl s)

theorem AccessEnd.busByAddress (w : Bool) (a b1 : Byte) (s : State) : AccessEnd s (busByAddress w a b1 s) := by
  unfold Machine.busByAddress
  cases addressOperand a with
  | none => exact .refuse _
  | some a7 => exact .runDecoded_decode ..

theorem AccessEnd.busReadReg (r : RegName) (s : State) : AccessEnd s (busReadReg r s) := .runDecoded_decode ..

theorem AccessEnd.busWriteReg (r : RegName) (v : Byte) (s : State) : AccessEnd s (busWriteReg r v s) :=
  .runDecoded_decode ..

/-! ## Answers at a legal position -/

/-- The answer goes on, to a legal position. -/
def AtLegalStep (a : Answer) : Prop := ∃ t, a = .next t ∧ t.positionOk

theorem AtLegalStep.of_idle {t : State} (ho : t.ctl.op = .idle) (hl : t.dev.resetLine = .released) :
    AtLegalStep (.next t) := by
  refine ⟨t, rfl, ?_⟩
  rw [State.positionOk, ho]
  exact hl

/-- A legal position sees the operation and the reset line only. -/
theorem State.positionOk_congr {s t : State} (ho : t.ctl.op = s.ctl.op) (hl : t.dev.resetLine = s.dev.resetLine)
    (h : s.positionOk) : t.positionOk := by
  unfold State.positionOk
  rw [ho, hl]
  exact h

theorem State.line_of_idle {s : State} (h : s.positionOk) (ho : s.ctl.op = .idle) : s.dev.resetLine = .released := by
  rw [State.positionOk, ho] at h
  exact h

/-- An access of the idle controller leaves it idle. -/
theorem AccessEnd.atLegalStep {s : State} {a : Answer} (h : AccessEnd s a) (ho : s.ctl.op = .idle)
    (hl : s.dev.resetLine = .released) : AtLegalStep a := by
  cases h with
  | goesOn h => exact .of_idle (h.ctl ▸ ho) (h.line.trans hl)
  | fault f => exact .of_idle rfl hl
  | refuse r => exact .of_idle rfl hl

/-- An operation outside the pulse goes on to a legal position after its access, or is ended by it. -/
theorem AccessEnd.andThen {s : State} {a : Answer} {k : State → State} (h : AccessEnd s a) (hs : s.stopped = false)
    (hl : s.dev.resetLine = .released) (hk : ∀ t, t.dev.resetLine = .released → (k t).positionOk) :
    AtLegalStep (andThen a k) := by
  cases h with
  | goesOn h =>
    rename_i t
    have ht : t.stopped = false := by rw [← hs, State.stopped, h.fault, h.refusal, State.stopped]
    rw [andThen_next, ht]
    exact ⟨k t, rfl, hk t (h.line.trans hl)⟩
  | fault f => exact .of_idle rfl hl
  | refuse r =>
    have ht : (s.refusedFor r).stopped = true := Bool.or_true _
    rw [andThen_next, ht]
    exact .of_idle rfl hl

/-! ## The steps of each operation -/

@[simp] theorem State.positionOk_goto {s : State} {req : Request} {pc sub : Nat} {loc : Locals} :
    (s.goto req pc sub loc).positionOk ↔ opAtStep (.running req pc sub loc) s.dev.resetLine := Iff.rfl

@[simp] theorem State.positionOk_finish {s : State} {r : Result} :
    (s.finish r).positionOk ↔ s.dev.resetLine = .released := Iff.rfl

theorem line_released_of_ne_asserted {l : Line} (h : l ≠ .asserted) : l = .released := by
  cases l with
  | released => rfl
  | asserted => exact absurd rfl h

/-- Each step of the pulse leaves the line as the next step expects it (R117). -/
theorem stepReset_atLegalStep {pc sub : Nat} {loc : Locals} {s : State}
    (h : opAtStep (.running .reset pc sub loc) s.dev.resetLine) : AtLegalStep (stepReset pc loc s) := by
  obtain ⟨h1, h5, hline⟩ := h
  interval_cases pc <;> refine ⟨_, rfl, ?_⟩ <;> simp_all [opAtStep, Dev.reset]

/-- Steps 4 to 15 of `init` are its writes (R118). -/
theorem stepInit_write {pc : Nat} (h4 : 4 ≤ pc) (h15 : pc ≤ 15) (sub : Nat) (loc : Locals) (s : State) :
    ∃ r v, stepInit pc sub loc s = andThen (busWriteReg r v s) (fun t => t.goto .init (pc + 1) 0 loc) := by
  interval_cases pc <;> exact ⟨_, _, rfl⟩

section
variable {s : State} (hs : s.stopped = false)
include hs

/-- Step 1 of `init` is the pulse; its other steps leave the line released (R118). -/
theorem stepInit_atLegalStep {pc sub : Nat} {loc : Locals} (h : opAtStep (.running .init pc sub loc) s.dev.resetLine) :
    AtLegalStep (stepInit pc sub loc s) := by
  obtain ⟨h1, h16, hsub, hline⟩ := h
  have hl : pc ≠ 1 → s.dev.resetLine = .released := fun hpc =>
    line_released_of_ne_asserted fun e => hpc (hline.mp e).1
  rcases (by omega : pc = 1 ∨ pc = 2 ∨ pc = 3 ∨ pc = 16 ∨ 4 ≤ pc ∧ pc ≤ 15) with rfl | rfl | rfl | rfl | ⟨h4, h15⟩
  · obtain ⟨h1, h5⟩ := hsub rfl
    interval_cases sub <;> refine ⟨_, rfl, ?_⟩ <;> simp_all [opAtStep, Dev.reset]
  · exact (AccessEnd.busReadReg ..).andThen hs (hl (by omega)) fun t ht => by simp [opAtStep, ht]
  · simp only [stepInit]
    split
    · exact .of_idle rfl (hl (by omega))
    · exact ⟨_, rfl, by simp [opAtStep, hl]⟩
  · exact .of_idle rfl (hl (by omega))
  · obtain ⟨r, v, e⟩ := stepInit_write h4 h15 sub loc s
    rw [e]
    exact (AccessEnd.busWriteReg ..).andThen hs (hl (by omega)) fun t ht => by
      simp [opAtStep, ht, show pc ≠ 0 by omega, show pc < 16 by omega]

theorem stepSetMode_atLegalStep {m : Mode} {pc sub : Nat} {loc : Locals}
    (h : opAtStep (.running (.setMode m) pc sub loc) s.dev.resetLine) : AtLegalStep (stepSetMode m pc s) := by
  obtain ⟨rfl, hl⟩ := h
  exact (AccessEnd.busWriteReg ..).andThen hs hl fun t ht => ht

theorem stepSend_atLegalStep {bytes : List Byte} {pc sub : Nat} {loc : Locals}
    (h : opAtStep (.running (.send bytes) pc sub loc) s.dev.resetLine) : AtLegalStep (stepSend bytes pc sub loc s) := by
  obtain ⟨h1, h8, hlen, hl⟩ := h
  interval_cases pc
  · simp only [stepSend]
    split
    · exact .of_idle rfl hl
    · rename_i hshort
      exact ⟨_, rfl, by simpa [opAtStep, hl] using hshort⟩
  · exact (AccessEnd.busWriteReg ..).andThen hs hl fun t ht => by simp [opAtStep, ht, hlen]
  · exact (AccessEnd.busWriteReg ..).andThen hs hl fun t ht => by simp [opAtStep, ht, hlen]
  · simp only [stepSend]
    split
    · exact (AccessEnd.busWriteReg ..).andThen hs hl fun t ht => by simp [opAtStep, ht, hlen]
    · exact ⟨_, rfl, by simp [opAtStep, hl, hlen]⟩
  · exact (AccessEnd.busWriteReg ..).andThen hs hl fun t ht => by simp [opAtStep, ht, hlen]
  · exact (AccessEnd.busWriteReg ..).andThen hs hl fun t ht => by simp [opAtStep, ht, hlen]
  · refine (AccessEnd.busReadReg ..).andThen hs hl fun t ht => ?_
    unfold afterPoll
    split
    · simp [opAtStep, ht, hlen]
    · split <;> simp [opAtStep, ht, hlen]
  · exact (AccessEnd.busWriteReg ..).andThen hs hl fun t ht => ht

theorem stepTryReceive_atLegalStep {n pc sub : Nat} {loc : Locals}
    (h : opAtStep (.running (.tryReceive n) pc sub loc) s.dev.resetLine) : AtLegalStep (stepTryReceive n pc sub loc s) := by
  obtain ⟨h1, h6, hsub, hl⟩ := h
  interval_cases pc
  · exact (AccessEnd.busWriteReg ..).andThen hs hl fun t ht => by simp [opAtStep, ht]
  · refine (AccessEnd.busReadReg ..).andThen hs hl fun t ht => ?_
    unfold afterFlags
    split <;> simp [opAtStep, ht]
  · exact (AccessEnd.busWriteReg ..).andThen hs hl fun t ht => by simp [opAtStep, ht]
  · exact (AccessEnd.busReadReg ..).andThen hs hl fun t ht => by simp [opAtStep, ht]
  · have h1 : sub ≤ 1 := hsub rfl
    interval_cases sub
    · exact (AccessEnd.busReadReg ..).andThen hs hl fun t ht => by simp [opAtStep, ht]
    · exact (AccessEnd.busWriteReg ..).andThen hs hl fun t ht => by simp [opAtStep, ht]
  · simp only [stepTryReceive]
    split
    · exact (AccessEnd.busReadReg ..).andThen hs hl fun t ht => by simp [opAtStep, ht]
    · exact .of_idle rfl hl

theorem stepOp_atLegalStep {req : Request} {pc sub : Nat} {loc : Locals}
    (h : opAtStep (.running req pc sub loc) s.dev.resetLine) : AtLegalStep (stepOp req pc sub loc s) := by
  cases req with
  | reset => exact stepReset_atLegalStep h
  | init => exact stepInit_atLegalStep hs h
  | setMode m => exact stepSetMode_atLegalStep hs h
  | send bytes => exact stepSend_atLegalStep hs h
  | tryReceive n => exact stepTryReceive_atLegalStep hs h

end

/-! ## The turns of the agents -/

/-- Every operation has a step 1, taken with the line released (R32). -/
theorem State.start_positionOk {s : State} (req : Request) (hl : s.dev.resetLine = .released) :
    (s.start req).positionOk := by
  cases req <;> simp [State.positionOk, opAtStep, firstSub, hl]

/-- A request taken by the idle controller starts, or stops the node (R149, R151). -/
theorem offer_atLegalStep {req : Request} {bad : Option Refusal} {s : State} (ho : s.ctl.op = .idle)
    (hl : s.dev.resetLine = .released) : AtLegalStep (offer req bad s) := by
  rcases offer_cases req bad s with ⟨hne, -⟩ | ⟨-, -, e⟩ | ⟨-, -, x, -, e⟩ | ⟨-, -, -, e⟩
  · exact absurd ho hne
  · exact e ▸ .of_idle rfl hl
  · exact e ▸ .of_idle rfl hl
  · exact ⟨_, e, State.start_positionOk req hl⟩

theorem serveBusCall_atLegalStep {c : BusCall} {more : List BusCall} {s : State} (ho : s.ctl.op = .idle)
    (hl : s.dev.resetLine = .released) : AtLegalStep (serveBusCall c more s) := by
  cases c with
  | raw bytes =>
    exact (AccessEnd.runDecoded_decode s.cfg.regMap bytes (s.setBusCalls _)).atLegalStep ho hl
  | read a => exact (AccessEnd.busByAddress false a dummyByte (s.setBusCalls more)).atLegalStep ho hl
  | write a v => exact (AccessEnd.busByAddress true a v (s.setBusCalls more)).atLegalStep ho hl

theorem idleTurn_atLegalStep {s : State} (ho : s.ctl.op = .idle) (hl : s.dev.resetLine = .released) :
    AtLegalStep (idleTurn s) := by
  unfold idleTurn
  split
  · exact serveBusCall_atLegalStep ho hl
  · split
    · rw [exec_toInstr]
      exact offer_atLegalStep ho hl
    · exact .of_idle ho hl

theorem controllerTurn_atLegalStep {s : State} (hs : s.stopped = false) (h : s.positionOk) :
    AtLegalStep (controllerTurn s) := by
  unfold controllerTurn
  split
  · rename_i c more _
    obtain ⟨r, e⟩ := exec_codecCall c s.cfg.maxFrameLen (s.setCalls more)
    exact ⟨_, e, State.positionOk_congr rfl rfl h⟩
  · split
    · rename_i ho
      rw [State.positionOk, ho] at h
      exact stepOp_atLegalStep hs h
    · rename_i ho
      exact idleTurn_atLegalStep ho (State.line_of_idle h ho)

theorem agentMove_atLegalStep {a : Turn} {s : State} (hs : s.stopped = false) (h : s.positionOk) :
    AtLegalStep (agentMove a s) := by
  cases a with
  | controller => exact controllerTurn_atLegalStep hs h
  | txComplete =>
    refine ⟨_, rfl, ?_⟩
    rcases txComplete_cases s with e | ⟨f, -, -, e⟩ <;> rw [e]
    · exact h
    · exact State.positionOk_congr rfl rfl h
  | rxDeliver =>
    refine ⟨_, rfl, ?_⟩
    rcases rxDeliver_cases s with e | ⟨start, n, -, e⟩ <;> rw [e]
    · exact h
    · exact State.positionOk_congr rfl rfl h
  | hostRequest => exact ⟨_, rfl, State.positionOk_congr rfl rfl h⟩
  | hostCodecCall => exact ⟨_, rfl, State.positionOk_congr rfl rfl h⟩
  | hostTakesResult => exact ⟨_, rfl, State.positionOk_congr rfl rfl h⟩

/-! ## The statements -/

/-- Settles O59: from a legal position every agent's move goes on, to a legal position. -/
theorem stepKeepsTheControllerPosition : Obligations.StepKeepsTheControllerPosition := by
  unfold Obligations.StepKeepsTheControllerPosition
  refine ⟨fun s t h ht => ?_, fun s h hf ht => ?_⟩
  · obtain ⟨hf, hr, -, u, hu, rfl⟩ := step_next ht
    obtain ⟨u', hu', hpos⟩ := agentMove_atLegalStep (a := s.turn) (by simp [State.stopped, hf, hr]) h
    cases hu.symm.trans hu'
    exact State.positionOk_congr rfl rfl hpos
  · cases hr : s.refusal with
    | some r => simp [step, nodeStep, hf, hr] at ht
    | none =>
      obtain ⟨u, hu, -⟩ := agentMove_atLegalStep (a := s.turn) (by simp [State.stopped, hf, hr]) h
      rcases buildCheck_cases s.cfg with ⟨hb, -⟩ | ⟨-, hb⟩
      · rw [step_running hf hr hb, hu] at ht
        cases ht
      · simp [step, nodeStep, hf, hr, hb] at ht

/-- Settles O25: an idle controller takes the request, which passes the lifecycle guard and its argument check. -/
theorem requestStartsAtStepOne : Obligations.RequestStartsAtStepOne := by
  unfold Obligations.RequestStartsAtStepOne
  intro req s ho hreq
  have hok : takenIn req s.ctl.life = true ∧ badArgument req s.cfg = none := by
    cases req with
    | reset => exact ⟨by simpa [takenIn] using hreq, rfl⟩
    | init => exact ⟨by simpa [takenIn] using hreq.1, buildCheck_eq_none.mpr hreq.2⟩
    | setMode m => exact ⟨by simpa [takenIn] using hreq, rfl⟩
    | send bytes => exact ⟨by simpa [takenIn] using hreq, rfl⟩
    | tryReceive n => exact ⟨by simpa [takenIn] using hreq.1, if_neg (by omega)⟩
  refine ⟨firstSub req, ?_, fun e => by rw [e]; rfl⟩
  rw [exec_toInstr]
  rcases offer_cases req (badArgument req s.cfg) s with ⟨h, -⟩ | ⟨-, h, -⟩ | ⟨-, -, x, h, -⟩ | ⟨-, -, -, e⟩
  · exact absurd ho h
  · simp [hok.1] at h
  · simp [hok.2] at h
  · exact e

end Sys2Proof.Machine
end

section
/-! O52: the done flags. A turn of the controller sets none; what clears one is a WR_IRQ_FLAGS transaction or the end of the
reset pulse, and the decoder reads a WR_IRQ_FLAGS only where the address of IRQ_FLAGS is written to. -/

namespace Sys2Proof.Machine

/-- The done flags of `d'` are those of `d`. -/
structure Dev.SameFlags (d d' : Dev) : Prop where
  txDone : d'.txDone = d.txDone
  rxDone : d'.rxDone = d.rxDone

/-- Every done flag set in `d'` is set in `d`. -/
structure Dev.NoNewFlag (d d' : Dev) : Prop where
  txDone : d'.txDone = true → d.txDone = true
  rxDone : d'.rxDone = true → d.rxDone = true

theorem Dev.SameFlags.refl (d : Dev) : d.SameFlags d := ⟨rfl, rfl⟩

theorem Dev.SameFlags.noNewFlag {d d' : Dev} (h : d.SameFlags d') : d.NoNewFlag d' :=
  ⟨fun e => h.txDone ▸ e, fun e => h.rxDone ▸ e⟩

theorem Dev.SameFlags.symm {d d' : Dev} (h : d.SameFlags d') : d'.SameFlags d := ⟨h.txDone.symm, h.rxDone.symm⟩

/-! ## Instructions -/

theorem writeRule_sameFlags {r : RegName} {s t : State} {v : Byte} (hr : r ≠ .irqFlags) (h : writeRule r v s = .done t) :
    s.dev.SameFlags t.dev := by
  cases r with
  | irqFlags => exact absurd rfl hr
  | opMode =>
    obtain ⟨m, j, a, n, rfl, -, -⟩ := modeWrite_update h
    exact ⟨rfl, rfl⟩
  | fifo =>
    simp only [writeRule, writeFifo] at h
    split at h <;> cases h
    exact ⟨rfl, rfl⟩
  | fifoAddrPtr => cases h; exact ⟨rfl, rfl⟩
  | payloadLength =>
    simp only [writeRule, writeLength] at h
    split at h <;> cases h
    exact ⟨rfl, rfl⟩
  | fifoRxCurrentAddr | rxNbBytes | version => cases h
  | _ => cases writeConfig_done h; exact ⟨rfl, rfl⟩

/-- A written 1 clears a flag and a written 0 keeps it: neither sets it (R108). -/
theorem clearFlags_noNewFlag (s : State) (v : Byte) : s.dev.NoNewFlag (s.clearFlags v).dev :=
  ⟨fun h => (Bool.and_eq_true_iff.mp h).1, fun h => (Bool.and_eq_true_iff.mp h).1⟩

/-- A write transaction changes the device as the register's rule does, with the byte that arrives, or not at all. -/
theorem transWrite_dev {r : RegName} {v : Byte} {s t : State} (h : transWrite (writeRule r) v s = .next t) :
    t.dev = s.dev ∨ ∃ n b u, writeRule r b (s.setFree n) = .done u ∧ t.dev = u.dev := by
  rcases transWrite_cases (writeRule r) v s with ⟨-, e⟩ | ⟨-, u, hw, e⟩ | ⟨-, f, -, e⟩ | ⟨-, x, -, e⟩ <;>
    cases e.symm.trans h
  case inr.inl =>
    rcases carryWrite_done hw with rfl | ⟨n, b, hb⟩
    · exact .inl rfl
    · exact .inr ⟨n, b, u, hb, rfl⟩
  all_goals exact .inl rfl

theorem transRead_sameFlags {r : RegName} {s t : State} (h : transRead (readRule r) s = .next t) :
    s.dev.SameFlags t.dev := by
  rcases transRead_cases (readRule r) s with ⟨-, e⟩ | ⟨-, v, u, hr, e⟩ | ⟨-, f, -, e⟩ | ⟨-, x, -, e⟩ <;>
    cases e.symm.trans h
  case inr.inl =>
    rw [(State.sameRadio_received u v).dev]
    rcases readRule_done hr with ⟨n, rfl⟩ | ⟨n, p, rfl⟩ <;> exact ⟨rfl, rfl⟩
  all_goals exact ⟨rfl, rfl⟩

theorem transWrite_sameFlags {r : RegName} {v : Byte} {s t : State} (hr : r ≠ .irqFlags)
    (h : transWrite (writeRule r) v s = .next t) : s.dev.SameFlags t.dev := by
  rcases transWrite_dev h with e | ⟨n, b, u, hw, e⟩ <;> rw [e]
  · exact .refl _
  · exact writeRule_sameFlags (s := s.setFree n) hr hw

/-- No instruction but WR_IRQ_FLAGS touches a done flag (R21, R35). -/
theorem exec_sameFlags {i : Instr} {s t : State} (hi : ∀ v, i ≠ .wrIrqFlags v) (h : exec i s = .next t) :
    s.dev.SameFlags t.dev := by
  cases htr : i.transaction? with
  | some x =>
    obtain ⟨w, r, b⟩ := x
    rw [exec_transaction htr] at h
    cases w with
    | false => exact transRead_sameFlags h
    | true =>
      refine transWrite_sameFlags ?_ h
      rintro rfl
      cases i <;> cases htr
      exact hi _ rfl
  | none =>
    rcases request_or_call htr with ⟨req, rfl⟩ | ⟨c, n, rfl⟩
    · rw [exec_toInstr] at h
      rw [(offer_sameRadio h).dev]
      exact .refl _
    · obtain ⟨r, e⟩ := exec_codecCall c n s
      cases e.symm.trans h
      exact .refl _

/-- No instruction sets a done flag (R21, R35, R108). -/
theorem exec_noNewFlag {i : Instr} {s t : State} (h : exec i s = .next t) : s.dev.NoNewFlag t.dev := by
  by_cases hi : ∃ v, i = .wrIrqFlags v
  · obtain ⟨v, rfl⟩ := hi
    rcases transWrite_dev (r := .irqFlags) h with e | ⟨n, b, u, hw, e⟩ <;> rw [e]
    · exact ⟨id, id⟩
    · cases hw
      exact clearFlags_noNewFlag (s.setFree n) b
  · exact (exec_sameFlags (not_exists.mp hi) h).noNewFlag

/-! ## Who sets a flag -/

theorem TurnEffect.noNewFlag {q u : State} (h : TurnEffect q u) : q.dev.NoNewFlag u.dev := by
  rcases h with rfl | ⟨i, h⟩ | ⟨f, rfl⟩ | ⟨r, rfl⟩ | rfl | rfl | rfl
  · exact ⟨id, id⟩
  · exact exec_noNewFlag h
  · exact ⟨id, id⟩
  · exact ⟨id, id⟩
  · exact ⟨id, id⟩
  · exact ⟨id, id⟩
  · exact ⟨fun e => (nomatch e), fun e => (nomatch e)⟩

theorem controllerTurn_noNewFlag {s t : State} (h : controllerTurn s = .next t) : s.dev.NoNewFlag t.dev := by
  rcases controllerTurn_cases s with e | ⟨cs, bs, ps, u, c, he, e⟩ <;> cases e.symm.trans h
  exact he.noNewFlag

/-- TxComplete sets txDone and leaves rxDone alone (R123). -/
theorem txComplete_flags (s : State) : (txComplete s).dev.rxDone = s.dev.rxDone ∧
    (s.dev.txDone = true → (txComplete s).dev.txDone = true) := by
  rcases txComplete_cases s with e | ⟨f, -, -, e⟩ <;> rw [e]
  · exact ⟨rfl, id⟩
  · exact ⟨rfl, fun _ => rfl⟩

/-- RxDeliver sets rxDone and leaves txDone alone (R125). -/
theorem rxDeliver_flags (s : State) : (rxDeliver s).dev.txDone = s.dev.txDone ∧
    (s.dev.rxDone = true → (rxDeliver s).dev.rxDone = true) := by
  rcases rxDeliver_cases s with e | ⟨start, n, -, e⟩ <;> rw [e]
  · exact ⟨rfl, id⟩
  · exact ⟨rfl, fun _ => rfl⟩

theorem agentMove_setsFlag {a : Turn} {s u : State} (h : agentMove a s = .next u) :
    (u.dev.txDone = true → s.dev.txDone = true ∨ a = .txComplete) ∧
    (u.dev.rxDone = true → s.dev.rxDone = true ∨ a = .rxDeliver) := by
  cases a with
  | controller =>
    have hno := controllerTurn_noNewFlag h
    exact ⟨fun e => .inl (hno.txDone e), fun e => .inl (hno.rxDone e)⟩
  | txComplete => cases h; exact ⟨fun _ => .inr rfl, fun e => .inl ((txComplete_flags s).1 ▸ e)⟩
  | rxDeliver => cases h; exact ⟨fun e => .inl ((rxDeliver_flags s).1 ▸ e), fun _ => .inr rfl⟩
  | hostRequest | hostCodecCall | hostTakesResult => cases h; exact ⟨.inl, .inl⟩

/-! ## Who clears a flag -/

/-- Outside the controller's turn no flag is lost (R12). -/
theorem agentMove_losesNoFlag {a : Turn} {s u : State} (ha : a ≠ .controller) (h : agentMove a s = .next u) :
    u.dev.NoNewFlag s.dev := by
  cases a with
  | controller => exact absurd rfl ha
  | txComplete => cases h; exact ⟨(txComplete_flags s).2, fun e => (txComplete_flags s).1.symm ▸ e⟩
  | rxDeliver => cases h; exact ⟨fun e => (rxDeliver_flags s).1.symm ▸ e, (rxDeliver_flags s).2⟩
  | hostRequest | hostCodecCall | hostTakesResult => cases h; exact ⟨id, id⟩

/-- A WR_IRQ_FLAGS is read only from a write to the address of IRQ_FLAGS (R55). -/
theorem decode_eq_wrIrqFlags {m : RegMap} {w : Bool} {a : RegAddr} {b1 v : Byte} {rest more : List Byte}
    (h : decode m (byte0 w a :: b1 :: rest) = .instr (.wrIrqFlags v) more) :
    w = true ∧ m.addr .irqFlags = a ∧ v = b1 := by
  simp only [decode, addressOf_byte0, directionOf_byte0] at h
  cases hr : m.find a with
  | none => simp [hr] at h
  | some r =>
    simp only [hr, Decoded.instr.injEq] at h
    have htr := Instr.transaction_ofTransaction w r b1
    rw [h.1] at htr
    cases htr
    exact ⟨rfl, RegMap.find_sound hr, rfl⟩

/-- An address operand that names an address is that address (R56). -/
theorem setWidth_of_addressOperand {a : Byte} {a7 : RegAddr} (h : addressOperand a = some a7) : a7.setWidth 8 = a := by
  unfold addressOperand at h
  split at h <;> cases h
  rename_i hmsb
  revert hmsb a
  decide

/-- Decoded bytes leave the flags alone, unless they are a WR_IRQ_FLAGS. -/
theorem runDecoded_flags {d : Decoded} {s t : State} (h : runDecoded d s = .next t) :
    s.dev.SameFlags t.dev ∨ ∃ v rest, d = .instr (.wrIrqFlags v) rest ∧ exec (.wrIrqFlags v) s = .next t := by
  cases d with
  | instr i rest =>
    by_cases hi : ∃ v, i = .wrIrqFlags v
    · obtain ⟨v, rfl⟩ := hi
      exact .inr ⟨v, rest, rfl, h⟩
    · exact .inl (exec_sameFlags (not_exists.mp hi) h)
  | unmapped w a rest =>
    simp only [runDecoded, transUnmapped] at h
    split at h <;> cases h <;> exact .inl (.refl _)
  | incomplete =>
    cases h
    exact .inl (.refl _)

/-- A transaction of two bytes leaves the flags alone, unless it writes to the address of IRQ_FLAGS. -/
theorem runBytes_flags {w : Bool} {a : RegAddr} {b1 : Byte} {s t : State} (h : runBytes (byte0 w a) b1 s = .next t) :
    s.dev.SameFlags t.dev ∨
      w = true ∧ s.cfg.regMap.addr .irqFlags = a ∧ exec (.wrIrqFlags b1) s = .next t := by
  rcases runDecoded_flags h with hs | ⟨v, rest, hd, hx⟩
  · exact .inl hs
  · obtain ⟨hw, ha, rfl⟩ := decode_eq_wrIrqFlags hd
    exact .inr ⟨hw, ha, hx⟩

theorem andThen_dev {a : Answer} {k : State → State} {t : State} (hk : ∀ u, (k u).dev = u.dev)
    (h : andThen a k = .next t) : ∃ u, a = .next u ∧ t.dev = u.dev := by
  cases a with
  | next u =>
    rw [andThen_next] at h
    split at h <;> cases h
    · exact ⟨_, rfl, rfl⟩
    · exact ⟨u, rfl, hk u⟩
  | fault f => cases h
  | refused r => cases h

/-- A step of an operation that reads a register leaves the flags alone. -/
theorem readStep_sameFlags {r : RegName} {k : State → State} {s t : State} (h : andThen (busReadReg r s) k = .next t)
    (hk : ∀ u, (k u).dev = u.dev := by exact fun _ => rfl) : s.dev.SameFlags t.dev := by
  obtain ⟨u, hu, e⟩ := andThen_dev hk h
  rw [e]
  rcases runBytes_flags hu with hs | ⟨hw, -⟩
  · exact hs
  · cases hw

/-- A step of an operation that writes a register leaves the flags alone, or is a WR_IRQ_FLAGS transaction. -/
theorem writeStep_flags {r : RegName} {v : Byte} {k : State → State} {s t : State} (hwf : s.cfg.regMap.wf = true)
    (h : andThen (busWriteReg r v s) k = .next t) (hk : ∀ u, (k u).dev = u.dev := by exact fun _ => rfl) :
    s.dev.SameFlags t.dev ∨ r = .irqFlags ∧ ∃ u, exec (.wrIrqFlags v) s = .next u ∧ t.dev = u.dev := by
  obtain ⟨u, hu, e⟩ := andThen_dev hk h
  rcases runBytes_flags hu with hs | ⟨-, ha, hx⟩
  · exact .inl (e ▸ hs)
  · exact .inr ⟨(RegMap.injective_of_wf hwf ha).symm, u, hx, e⟩

theorem writeStep_sameFlags {r : RegName} {v : Byte} {k : State → State} {s t : State} (hwf : s.cfg.regMap.wf = true)
    (h : andThen (busWriteReg r v s) k = .next t) (hr : r ≠ .irqFlags := by decide)
    (hk : ∀ u, (k u).dev = u.dev := by exact fun _ => rfl) : s.dev.SameFlags t.dev :=
  (writeStep_flags hwf h hk).resolve_right fun e => hr e.1

/-- The two ways a turn of the controller may clear a flag; any other leaves both flags alone. -/
def FlagAccount (s t : State) : Prop :=
  s.dev.SameFlags t.dev ∨ s.atResetEnd ∨ ∃ v u, s.atIrqWrite v ∧ exec (.wrIrqFlags v) s = .next u ∧ t.dev = u.dev

theorem resetStep_sameFlags {n : Nat} {s t : State} (hn : n ≠ 5) (h : resetStep n s = some t) :
    s.dev.SameFlags t.dev := by
  unfold resetStep at h
  split at h <;> cases h
  case h_5 => exact absurd rfl hn
  all_goals exact ⟨rfl, rfl⟩

theorem initWrite_ne_irqFlags {p : Params} {pc : Nat} {r : RegName} {v : Byte} (h : initWrite p pc = some (r, v)) :
    r ≠ .irqFlags := by
  unfold initWrite at h
  split at h <;> cases h <;> decide

section
variable {s t : State} {pc sub : Nat} {loc : Locals} (hc : s.calls = []) (hwf : s.cfg.regMap.wf = true)

include hc in
theorem stepReset_flagAccount (ho : s.ctl.op = .running .reset pc sub loc) (h : stepReset pc loc s = .next t) :
    FlagAccount s t := by
  by_cases hpc : pc = 5
  · subst hpc
    exact .inr (.inl ⟨hc, .inl ⟨sub, loc, ho⟩⟩)
  · unfold stepReset at h
    cases hr : resetStep pc s with
    | none => simp [hr] at h
    | some u =>
      simp only [hr, if_neg hpc] at h
      have hs := resetStep_sameFlags hpc hr
      cases h
      exact .inl hs

include hc hwf in
theorem stepInit_flagAccount (ho : s.ctl.op = .running .init pc sub loc) (h : stepInit pc sub loc s = .next t) :
    FlagAccount s t := by
  unfold stepInit at h
  split at h
  · by_cases hsub : sub = 5
    · subst hsub
      exact .inr (.inl ⟨hc, .inr ⟨loc, ho⟩⟩)
    · cases hr : resetStep sub s with
      | none => simp [hr] at h
      | some u =>
        simp only [hr, if_neg hsub] at h
        have hs := resetStep_sameFlags hsub hr
        cases h
        exact .inl hs
  · exact .inl (readStep_sameFlags h)
  · split at h <;> cases h <;> exact .inl (.refl _)
  · cases h
    exact .inl (.refl _)
  · split at h
    · rename_i hw
      exact .inl (writeStep_sameFlags hwf h (initWrite_ne_irqFlags hw))
    · cases h

include hwf in
theorem stepSetMode_sameFlags {m : Mode} (h : stepSetMode m pc s = .next t) : s.dev.SameFlags t.dev := by
  unfold stepSetMode at h
  split at h
  · exact writeStep_sameFlags hwf h
  · cases h

theorem afterPoll_dev (bytes : List Byte) (loc : Locals) (u : State) : (afterPoll bytes loc u).dev = u.dev := by
  unfold afterPoll
  split
  · rfl
  · split <;> rfl

theorem afterFlags_dev (n : Nat) (loc : Locals) (u : State) : (afterFlags n loc u).dev = u.dev := by
  unfold afterFlags
  split <;> rfl

include hc hwf in
theorem stepSend_flagAccount {bytes : List Byte} (ho : s.ctl.op = .running (.send bytes) pc sub loc)
    (h : stepSend bytes pc sub loc s = .next t) : FlagAccount s t := by
  unfold stepSend at h
  split at h
  · split at h <;> cases h <;> exact .inl (.refl _)
  · exact .inl (writeStep_sameFlags hwf h)
  · exact .inl (writeStep_sameFlags hwf h)
  · split at h
    · exact .inl (writeStep_sameFlags hwf h)
    · cases h
      exact .inl (.refl _)
  · exact .inl (writeStep_sameFlags hwf h)
  · exact .inl (writeStep_sameFlags hwf h)
  · exact .inl (readStep_sameFlags h (afterPoll_dev bytes loc))
  · rcases writeStep_flags hwf h with hs | ⟨-, u, hx, e⟩
    · exact .inl hs
    · exact .inr (.inr ⟨_, u, ⟨hc, .inl ⟨bytes, sub, loc, ho, rfl⟩⟩, hx, e⟩)
  · cases h

include hc hwf in
theorem stepTryReceive_flagAccount {n : Nat} (ho : s.ctl.op = .running (.tryReceive n) pc sub loc)
    (h : stepTryReceive n pc sub loc s = .next t) : FlagAccount s t := by
  unfold stepTryReceive at h
  split at h
  · exact .inl (writeStep_sameFlags hwf h)
  · exact .inl (readStep_sameFlags h (afterFlags_dev n loc))
  · rcases writeStep_flags hwf h with hs | ⟨-, u, hx, e⟩
    · exact .inl hs
    · exact .inr (.inr ⟨_, u, ⟨hc, .inr (.inl ⟨n, sub, loc, ho, rfl⟩)⟩, hx, e⟩)
  · exact .inl (readStep_sameFlags h)
  · split at h
    · exact .inl (readStep_sameFlags h)
    · exact .inl (writeStep_sameFlags hwf h)
    · cases h
  · split at h
    · exact .inl (readStep_sameFlags h)
    · cases h
      exact .inl (.refl _)
  · cases h

include hc hwf in
theorem stepOp_flagAccount {req : Request} (ho : s.ctl.op = .running req pc sub loc)
    (h : stepOp req pc sub loc s = .next t) : FlagAccount s t := by
  cases req with
  | reset => exact stepReset_flagAccount hc ho h
  | init => exact stepInit_flagAccount hc hwf ho h
  | setMode m => exact .inl (stepSetMode_sameFlags hwf h)
  | send bytes => exact stepSend_flagAccount hc hwf ho h
  | tryReceive n => exact stepTryReceive_flagAccount hc hwf ho h

/-- WR_IRQ_FLAGS does to the device the same whatever accesses wait behind it (R108; log 18). -/
theorem exec_wrIrqFlags_setBusCalls {v : Byte} {b : List BusCall} (h : exec (.wrIrqFlags v) (s.setBusCalls b) = .next t) :
    ∃ u, exec (.wrIrqFlags v) s = .next u ∧ t.dev = u.dev := by
  simp only [exec, execWrIrqFlags, transWrite, carryWrite, State.setBusCalls_dev, State.setBusCalls_cfg,
    State.setBusCalls_free] at h ⊢
  cases hl : s.dev.resetLine with
  | asserted =>
    simp only [hl] at h
    cases h
    exact ⟨_, rfl, rfl⟩
  | released =>
    cases hb : s.cfg.busReliable with
    | true =>
      simp only [hl, hb] at h
      cases h
      exact ⟨_, rfl, rfl⟩
    | false =>
      cases hf : Config.freeFate s.free <;> simp only [hl, hb, hf] at h <;> cases h <;> exact ⟨_, rfl, rfl⟩

end

/-- A direct access clears a flag only as a WR_IRQ_FLAGS transaction (log 18). -/
theorem serveBusCall_flagAccount {c : BusCall} {more : List BusCall} {s t : State} (hc : s.calls = [])
    (ho : s.ctl.op = .idle) (hb : s.busCalls = c :: more) (h : serveBusCall c more s = .next t) : FlagAccount s t := by
  cases c with
  | raw bytes =>
    rcases runDecoded_flags h with hs | ⟨v, rest, hd, hx⟩
    · exact .inl hs
    · obtain ⟨u, hu, e⟩ := exec_wrIrqFlags_setBusCalls hx
      exact .inr (.inr ⟨v, u, ⟨hc, .inr (.inr ⟨ho, more, .inl ⟨bytes, rest, hb, hd⟩⟩)⟩, hu, e⟩)
  | read a =>
    simp only [serveBusCall, busByAddress] at h
    split at h
    · cases h
      exact .inl (.refl _)
    · rcases runBytes_flags h with hs | ⟨hw, -⟩
      · exact .inl hs
      · cases hw
  | write a v =>
    simp only [serveBusCall, busByAddress] at h
    split at h
    · cases h
      exact .inl (.refl _)
    · rename_i a7 ha7
      rcases runBytes_flags h with hs | ⟨-, ha, hx⟩
      · exact .inl hs
      · obtain ⟨u, hu, e⟩ := exec_wrIrqFlags_setBusCalls hx
        have haddr : (s.cfg.regMap.addr .irqFlags).setWidth 8 = a := by
          rw [show s.cfg.regMap.addr .irqFlags = a7 from ha]
          exact setWidth_of_addressOperand ha7
        exact .inr (.inr ⟨v, u, ⟨hc, .inr (.inr ⟨ho, more, .inr (haddr ▸ hb)⟩)⟩, hu, e⟩)

/-- All that a turn of the controller does to the flags. -/
theorem controllerTurn_flagAccount {s t : State} (hwf : s.cfg.regMap.wf = true) (h : controllerTurn s = .next t) :
    FlagAccount s t := by
  unfold controllerTurn at h
  split at h
  · rename_i c more _
    obtain ⟨r, e⟩ := exec_codecCall c s.cfg.maxFrameLen (s.setCalls more)
    cases e.symm.trans h
    exact .inl (.refl _)
  · rename_i hc
    split at h
    · rename_i ho
      exact stepOp_flagAccount hc hwf ho h
    · rename_i ho
      unfold idleTurn at h
      split at h
      · rename_i hb
        exact serveBusCall_flagAccount hc ho hb h
      · split at h
        · rename_i req held _
          rw [exec_toInstr] at h
          exact .inl ((offer_sameRadio h).dev ▸ .refl _)
        · cases h
          exact .inl (.refl _)

/-- A lost flag shows that the two states differ in a flag. -/
theorem Dev.NoNewFlag.not_lost {d d' : Dev} (h : d'.NoNewFlag d) :
    ¬ (d.txDone = true ∧ d'.txDone = false ∨ d.rxDone = true ∧ d'.rxDone = false) := by
  rintro (⟨hset, hclear⟩ | ⟨hset, hclear⟩)
  · simp [h.txDone hset] at hclear
  · simp [h.rxDone hset] at hclear

/-- Settles O52: the setters from what each agent's move does to the flags, the clearers from the controller's turn. -/
theorem onlyEventsSetDoneFlags : Obligations.OnlyEventsSetDoneFlags := by
  unfold Obligations.OnlyEventsSetDoneFlags
  refine ⟨fun i s t h => ?_, fun s t h => ?_⟩
  · have hno := exec_noNewFlag h
    exact ⟨fun hi => ⟨(exec_sameFlags hi h).txDone, (exec_sameFlags hi h).rxDone⟩, hno.txDone, hno.rxDone⟩
  · obtain ⟨-, -, -, u, hu, rfl⟩ := step_next h
    obtain ⟨htx, hrx⟩ := agentMove_setsFlag hu
    refine ⟨htx, hrx, fun hwf hlost => ?_⟩
    by_cases ha : s.turn = .controller
    · rw [ha] at hu
      exact ⟨ha, (controllerTurn_flagAccount hwf hu).resolve_left fun hs => hs.symm.noNewFlag.not_lost hlost⟩
    · exact absurd hlost (agentMove_losesNoFlag ha hu).not_lost

end Sys2Proof.Machine
end

section
/-! O49, O50: what the transactions leave unchanged. All that a read or a write can do to the node is said once
(`transRead_update`, `transWrite_update`); each frame is then a case analysis over it. -/

namespace Sys2Proof.Machine

/-! ## Reads -/

/-- A FIFO access that does not go through faults (R79, R98). -/
theorem fifoAccess_ne_refuse (s : State) (x : Refusal) : fifoAccess s ≠ .refuse x := by
  unfold fifoAccess
  cases s.dev.mode <;> cases s.reg .fifoAddrPtr <;> simp

theorem State.valueOf_draws (s : State) (c : Cell 8) : ∃ v n, s.valueOf c = (v, s.setFree n) :=
  ⟨(s.valueOf c).1, (s.valueOf c).2.free, Prod.ext rfl (State.valueOf_frame s c).1⟩

theorem State.nibbleOf_draws (s : State) (c : Cell 4) : ∃ v n, s.nibbleOf c = (v, s.setFree n) := by
  cases c with
  | known v => exact ⟨v, s.free, rfl⟩
  | unknown => exact ⟨_, s.free + 1, rfl⟩

theorem readStored_draws (q : StoreReg) (s : State) : ∃ v n, readStored q s = .done (v, s.setFree n) := by
  obtain ⟨v, n, e⟩ := State.valueOf_draws s (s.reg q)
  exact ⟨v, n, congrArg Acc.done e⟩

/-- Every read but that of the FIFO goes through, and only draws (R80 to R97). -/
theorem readRule_draws {r : RegName} (hr : r ≠ .fifo) (s : State) : ∃ v n, readRule r s = .done (v, s.setFree n) := by
  cases r with
  | fifo => exact absurd rfl hr
  | opMode =>
    obtain ⟨mid, n, e⟩ := State.nibbleOf_draws s s.dev.mid
    exact ⟨_, n, by rw [readRule, readOpMode, e]⟩
  | irqFlags => exact ⟨_, s.free + 1, rfl⟩
  | version => exact ⟨_, s.free, rfl⟩
  | _ => exact readStored_draws _ s

/-- No read is refused (R79 to R97). -/
theorem readRule_ne_refuse (r : RegName) (s : State) (x : Refusal) : readRule r s ≠ .refuse x := by
  intro h
  by_cases hr : r = .fifo
  · subst hr
    simp only [readRule, readFifo] at h
    split at h <;> cases h
    rename_i hx
    exact fifoAccess_ne_refuse s _ hx
  · obtain ⟨v, n, e⟩ := readRule_draws hr s
    cases e.symm.trans h

/-- All that a read transaction changes: it faults, or it draws and gives its response bytes, where the FIFO read steps the
pointer as well (R74, R79). -/
theorem transRead_update {r : RegName} {s t : State} (h : transRead (readRule r) s = .next t) :
    (∃ f, t = s.faulted f) ∨ (∃ b n, t = (s.setBus b).setFree n) ∨
      r = .fifo ∧ ∃ p b n, t = ((s.setReg .fifoAddrPtr p).setBus b).setFree n := by
  rcases transRead_cases (readRule r) s with ⟨-, e⟩ | ⟨-, v, u, hu, e⟩ | ⟨-, f, -, e⟩ | ⟨-, x, hx, -⟩
  · exact .inl ⟨_, Host.Outcome.next.inj (h.symm.trans e)⟩
  · cases h.symm.trans e
    rw [(State.received_frame u v).1]
    by_cases hr : r = .fifo
    · rcases readRule_done hu with ⟨n, rfl⟩ | ⟨n, p, rfl⟩
      · exact .inr (.inl ⟨_, _, rfl⟩)
      · exact .inr (.inr ⟨hr, p, _, _, rfl⟩)
    · obtain ⟨v', n, hv⟩ := readRule_draws hr s
      cases hu.symm.trans hv
      exact .inr (.inl ⟨_, _, rfl⟩)
  · exact .inl ⟨f, Host.Outcome.next.inj (h.symm.trans e)⟩
  · exact absurd hx (readRule_ne_refuse r s x)

/-- Settles O49: all that a read changes is the fault that stops it, or its draws and response bytes, with the pointer under
RD_FIFO. -/
theorem readTransactionsFrame : Obligations.ReadTransactionsFrame := by
  unfold Obligations.ReadTransactionsFrame
  intro r d s t h
  rw [exec_ofRead] at h
  rcases transRead_update h with ⟨f, rfl⟩ | ⟨b, n, rfl⟩ | ⟨hr, p, b, n, rfl⟩ <;>
    refine ⟨rfl, rfl, rfl, rfl, rfl, rfl, rfl, fun _ => rfl, fun q hq => ?_, rfl, rfl, rfl, rfl, rfl, rfl, rfl, rfl, rfl,
      fun hf => ?_⟩
  · rfl
  · cases hf
  · rfl
  · rfl
  · exact State.reg_setReg_other s p fun hq' => hq ⟨hr, hq'⟩
  · rfl

/-! ## Writes -/

/-- What a write to register `r` can do to the device and the emissions (R98 to R116): the bus loses it (R77), or it is a store
into the register, a FIFO write at the pointer, a clearing of flags, or an OP_MODE write. -/
inductive WriteMove (r : RegName) (d : Dev) (air : List Emission) : Dev → List Emission → Prop where
  | lost : WriteMove r d air d air
  | stored {q : StoreReg} (v : Byte) (hq : q.name = r) :
    WriteMove r d air { d with regs := d.regs.set (.known v) q } air
  | pushed {p : Byte} (v : Byte) (hr : r = .fifo) (hp : d.regs.get .fifoAddrPtr = .known p) :
    WriteMove r d air
      { d with fifo := d.fifo.write p.toNat v, regs := d.regs.set (.known (p + 1)) .fifoAddrPtr } air
  | cleared (tx rx : Bool) (hr : r = .irqFlags) : WriteMove r d air { d with txDone := tx, rxDone := rx } air
  | mode (lr : Bool) (mid : Cell 4) (m : Mode) (j : Option (List Byte)) (air' : List Emission) (hr : r = .opMode) :
    WriteMove r d air { d with lr := lr, mid := mid, mode := m, txJob := j } air'

/-- A register's write rule that goes through is such a move, and besides only draws. -/
theorem writeRule_update {r : RegName} {v : Byte} {s t : State} (h : writeRule r v s = .done t) :
    ∃ d a n, WriteMove r s.dev s.air d a ∧ t = ((s.setDev d).setAir a).setFree n := by
  cases r with
  | opMode =>
    obtain ⟨m, j, a, n, e, -, -⟩ := modeWrite_update h
    exact ⟨_, a, n, .mode _ _ m j a rfl, e⟩
  | fifo =>
    simp only [writeRule, writeFifo] at h
    split at h <;> cases h
    rename_i p hp
    obtain ⟨-, hptr⟩ := (fifoAccess_done_iff s p).mp hp
    exact ⟨_, _, s.free, .pushed v rfl hptr, rfl⟩
  | fifoAddrPtr => cases h; exact ⟨_, _, s.free, .stored (q := .fifoAddrPtr) v rfl, rfl⟩
  | irqFlags => cases h; exact ⟨_, _, s.free, .cleared (s.clearFlags v).dev.txDone (s.clearFlags v).dev.rxDone rfl, rfl⟩
  | payloadLength =>
    simp only [writeRule, writeLength] at h
    split at h <;> cases h
    exact ⟨_, _, s.free, .stored (q := .payloadLength) v rfl, rfl⟩
  | fifoRxCurrentAddr | rxNbBytes | version => cases h
  | _ => cases writeConfig_done h; exact ⟨_, _, s.free, .stored v rfl, rfl⟩

/-- All that a write transaction changes: it is stopped, or the device and the emissions move as the register allows, beside
the draws and the response bytes (R75, R77). -/
theorem transWrite_update {r : RegName} {v : Byte} {s t : State} (h : transWrite (writeRule r) v s = .next t) :
    (∃ f, t = s.faulted f) ∨ (∃ x, t = s.refusedFor x) ∨
      ∃ d a b n, WriteMove r s.dev s.air d a ∧ t = (((s.setDev d).setAir a).setBus b).setFree n := by
  rcases transWrite_cases (writeRule r) v s with ⟨-, e⟩ | ⟨-, u, hu, e⟩ | ⟨-, f, -, e⟩ | ⟨-, x, -, e⟩ <;>
    cases h.symm.trans e
  · exact .inl ⟨_, rfl⟩
  · right; right
    rcases carryWrite_done hu with rfl | ⟨n, b, hb⟩
    · exact ⟨s.dev, s.air, _, _, .lost, rfl⟩
    · obtain ⟨d, a, k, hm, rfl⟩ := writeRule_update hb
      exact ⟨d, a, _, _, hm, rfl⟩
  · exact .inl ⟨f, rfl⟩
  · exact .inr (.inl ⟨x, rfl⟩)

section
variable {r : RegName} {d d' : Dev} {air air' : List Emission} (h : WriteMove r d air d' air')
include h

/-- Only the written register changes, and the pointer under WR_FIFO (R98). -/
theorem WriteMove.get_eq {q : StoreReg} (hq : q.name ≠ r) (hptr : ¬(r = .fifo ∧ q = .fifoAddrPtr)) :
    d'.regs.get q = d.regs.get q := by
  cases h with
  | stored v hq' => exact Regs.get_set_other _ _ fun e => hq (e ▸ hq')
  | pushed v hr hp => exact Regs.get_set_other _ _ fun e => hptr ⟨hr, e⟩
  | lost | cleared | mode => rfl

/-- Only WR_IRQ_FLAGS changes a flag (R108). -/
theorem WriteMove.flags_eq (hr : r ≠ .irqFlags) : d'.txDone = d.txDone ∧ d'.rxDone = d.rxDone := by
  cases h with
  | cleared tx rx hr' => exact absurd hr' hr
  | lost | stored | pushed | mode => exact ⟨rfl, rfl⟩

/-- Only WR_OP_MODE changes the mode, the pending frame and the emissions (R120). -/
theorem WriteMove.mode_eq (hr : r ≠ .opMode) :
    d'.lr = d.lr ∧ d'.mid = d.mid ∧ d'.mode = d.mode ∧ d'.txJob = d.txJob ∧ air' = air := by
  cases h with
  | mode lr mid m j a hr' => exact absurd hr' hr
  | lost | stored | pushed | cleared => exact ⟨rfl, rfl, rfl, rfl, rfl⟩

/-- Only WR_FIFO changes the buffer, and there only the byte at the pointer (R98). -/
theorem WriteMove.read_eq {a : Nat} (ha : ∀ p, r = .fifo → d.regs.get .fifoAddrPtr = .known p → a ≠ p.toNat) :
    d'.fifo.read a = d.fifo.read a := by
  cases h with
  | pushed v hr hp => exact Memory.read_write_other _ v (ha _ hr hp)
  | lost | stored | cleared | mode => rfl

theorem WriteMove.resetLine_eq : d'.resetLine = d.resetLine := by
  cases h <;> rfl

end

/-- Settles O50: a stopped write changes only its mark and the operation, any other makes a move of the device that its
register allows. -/
theorem writeTransactionsFrame : Obligations.WriteTransactionsFrame := by
  unfold Obligations.WriteTransactionsFrame
  intro r v s t h
  rw [exec_ofWrite] at h
  rcases transWrite_update h with ⟨f, rfl⟩ | ⟨x, rfl⟩ | ⟨d, a, b, n, hm, rfl⟩
  · exact ⟨fun _ _ _ => rfl, fun _ => ⟨rfl, rfl⟩, fun _ => ⟨rfl, rfl, rfl, rfl, rfl⟩, fun _ _ => rfl, rfl, rfl, rfl, rfl,
      rfl, rfl, rfl, rfl, fun hf => nomatch hf⟩
  · exact ⟨fun _ _ _ => rfl, fun _ => ⟨rfl, rfl⟩, fun _ => ⟨rfl, rfl, rfl, rfl, rfl⟩, fun _ _ => rfl, rfl, rfl, rfl, rfl,
      rfl, rfl, rfl, rfl, fun _ hx => nomatch hx⟩
  · exact ⟨fun _ hq hptr => hm.get_eq hq hptr, hm.flags_eq, hm.mode_eq, fun _ ha => hm.read_eq ha, hm.resetLine_eq, rfl, rfl,
      rfl, rfl, rfl, rfl, rfl, fun _ _ => rfl⟩

end Sys2Proof.Machine
end

section
/-! O1, O2, O3, O4: the two-byte format. The decoder at a register's address gives that register's transaction, and what the
encoder answers is said through `Instr.transaction?`; the two directions, the table words and byte 0 follow. -/

namespace Sys2Proof

/-! ## The decoder and the encoder, transaction by transaction -/

/-- At a register's address the decoder reads that register's transaction (R55, R60). -/
theorem decode_transaction {m : RegMap} (h : m.wf = true) (w : Bool) (r : RegName) (b1 : Byte) (rest : List Byte) :
    decode m (byte0 w (m.addr r) :: b1 :: rest) = .instr (Instr.ofTransaction w r b1) rest := by
  simp only [decode, addressOf_byte0, directionOf_byte0, RegMap.find_addr h]

/-- At no register's address the decoder answers `unmapped` (R66). -/
theorem decode_unmapped {m : RegMap} {a : RegAddr} (h : ∀ r, m.addr r ≠ a) (w : Bool) (b1 : Byte) (rest : List Byte) :
    decode m (byte0 w a :: b1 :: rest) = .unmapped w a rest := by
  simp only [decode, addressOf_byte0, directionOf_byte0, RegMap.find_none h]

/-- All that a decoded instruction says of the bytes (R55, R70). -/
theorem decode_eq_instr {m : RegMap} {bytes rest : List Byte} {i : Instr} (h : decode m bytes = .instr i rest) :
    ∃ b0 b1 r, bytes = b0 :: b1 :: rest ∧ m.addr r = addressOf b0 ∧ i = Instr.ofTransaction (directionOf b0) r b1 := by
  unfold decode at h
  split at h
  · rename_i b0 b1 more
    cases hr : m.find (addressOf b0) with
    | none => simp [hr] at h
    | some r =>
      simp only [hr] at h
      cases h
      exact ⟨b0, b1, r, rfl, RegMap.find_sound hr, rfl⟩
  · cases h

/-- An instruction is the transaction of its own direction, register and byte 1. -/
theorem Instr.ofTransaction_of_transaction {i : Instr} {w : Bool} {r : RegName} {b : Byte}
    (h : i.transaction? = some (w, r, b)) : Instr.ofTransaction w r b = i := by
  cases i <;> cases h <;> rfl

theorem encodeInstr_ofTransaction (m : RegMap) (w : Bool) (r : RegName) (b : Byte) :
    encodeInstr m (Instr.ofTransaction w r b) = some (byte0 w (m.addr r), b) := by
  simp only [encodeInstr, Instr.transaction_ofTransaction]

/-- Settles O1: the encoder writes byte 0 at the register's address, where the decoder reads the same transaction. -/
theorem decodeOfEncodedTransaction : Obligations.DecodeOfEncodedTransaction := by
  unfold Obligations.DecodeOfEncodedTransaction
  intro m i hwf hi
  obtain ⟨⟨w, r, b⟩, htr⟩ := Option.isSome_iff_exists.mp hi
  rw [← Instr.ofTransaction_of_transaction htr]
  exact ⟨byte0 w (m.addr r), b, encodeInstr_ofTransaction m w r b, decode_transaction hwf w r b⟩

/-- Settles O2: byte 0 is its direction bit and its address, and both are kept in the decoded transaction. -/
theorem encodeOfDecodedTransaction : Obligations.EncodeOfDecodedTransaction := by
  unfold Obligations.EncodeOfDecodedTransaction
  intro m bytes i rest h
  obtain ⟨b0, b1, r, hbytes, haddr, rfl⟩ := decode_eq_instr h
  refine ⟨b0, b1, hbytes, ?_⟩
  rw [encodeInstr_ofTransaction, haddr, byte0_fields]

/-! ## The table words -/

/-- A table word holds byte 0 of its row above byte 1, at the default addresses (R55, R60). -/
theorem tableWord_eq (w : Bool) (r : RegName) :
    Machine.tableWord w r = (byte0 w (RegMap.default.addr r)).toNat * 256 := by
  cases w <;> cases r <;> rfl

theorem wordBytes_eq (b0 b1 : Byte) : wordBytes (b0.toNat * 256 + b1.toNat) = [b0, b1] := by
  have h1 := b1.isLt
  have hhigh : (b0.toNat * 256 + b1.toNat) / 256 = b0.toNat := by omega
  have hlow : BitVec.ofNat 8 (b0.toNat * 256 + b1.toNat) = b1 := by
    apply BitVec.eq_of_toNat_eq
    rw [BitVec.toNat_ofNat]
    omega
  rw [wordBytes, hhigh, hlow, BitVec.ofNat_toNat, BitVec.setWidth_eq]

/-- Settles O3: a table word and byte 1 are the two bytes of a transaction at the default addresses. -/
theorem tableWordsDecodeToTheirRows : Obligations.TableWordsDecodeToTheirRows := by
  unfold Obligations.TableWordsDecodeToTheirRows
  intro w r b1
  have h0 := (byte0 w (RegMap.default.addr r)).isLt
  have h1 := b1.isLt
  rw [tableWord_eq, decodeTableWord, Nat.mod_eq_of_lt (by omega), if_neg (by omega), wordBytes_eq,
    decode_transaction RegMap.default_wf]

/-! ## Byte 0 -/

/-- Byte 0 of a write has bit 7 set above the address (R56). -/
theorem byte0_write (a : RegAddr) : byte0 true a = 0x80#8 ||| a.setWidth 8 := by
  revert a
  decide

/-- Byte 0 of a read is the address (R56). -/
theorem byte0_read (a : RegAddr) : byte0 false a = a.setWidth 8 := by
  revert a
  decide

/-- A call with an address operand whose bit 7 is set is refused before any transaction (R56). -/
theorem busByAddress_of_bit7 {a : Byte} (h : a.getLsbD 7 = true) (w : Bool) (b1 : Byte) (s : Machine.State) :
    Machine.busByAddress w a b1 s = .next (s.refusedFor .addressBit7Set) := by
  have hmsb : a.msb = true := h
  simp only [Machine.busByAddress, Machine.addressOperand, hmsb, if_true, Machine.refuse_eq]

/-- Settles O4: byte 0 as R56 writes it, and the two calls that take an 8-bit address operand. -/
theorem transactionByteZero : Obligations.TransactionByteZero := by
  unfold Obligations.TransactionByteZero
  refine ⟨fun m r v => ⟨?_, ?_⟩, fun s a v more h => ⟨?_, ?_⟩⟩
  · rw [← byte0_write]
    exact encodeInstr_ofTransaction m true r v
  · rw [← byte0_read]
    exact encodeInstr_ofTransaction m false r v
  · exact busByAddress_of_bit7 h false Machine.dummyByte (s.setBusCalls more)
  · exact busByAddress_of_bit7 h true v (s.setBusCalls more)

end Sys2Proof
end

section
/-! O21, O51: the checks of an OP_MODE write, each as the case of `modeWrite` it is, and what the host requests leave alone. -/

namespace Sys2Proof.Machine

/-! ## The checks of an OP_MODE write -/

section
variable {rule : Byte → State → Acc State} {v : Byte} {s : State} (h : s.busReady)
include h

theorem transWrite_of_fault {f : Fault} (hr : rule v s = .fault f) : transWrite rule v s = .next (s.faulted f) := by
  obtain ⟨hl, hb⟩ := h
  simp only [transWrite, carryWrite, hl, hb, if_true, hr, raise_eq]

theorem transWrite_of_refuse {x : Refusal} (hr : rule v s = .refuse x) : transWrite rule v s = .next (s.refusedFor x) := by
  obtain ⟨hl, hb⟩ := h
  simp only [transWrite, carryWrite, hl, hb, if_true, hr, refuse_eq]

end

/-- The fault cells of the transition table (R121). -/
theorem modeAllowed_eq_false_of_mem {old new : Mode}
    (h : (old, new) ∈ [(Mode.sleep, Mode.sleep), (.sleep, .transmit), (.sleep, .receiveContinuous), (.standby, .sleep),
      (.transmit, .sleep), (.transmit, .transmit), (.transmit, .receiveContinuous), (.receiveContinuous, .sleep),
      (.receiveContinuous, .transmit)]) : modeAllowed old new = false := by
  revert h
  cases old <;> cases new <;> decide

theorem modeWrite_reserved {v : Byte} {s : State} (h : ∀ m, s.cfg.codes.code m ≠ modeField v) :
    modeWrite v s = .refuse .reservedMode := by
  simp only [modeWrite, modeOfCode_none h]

section
variable {v : Byte} {s : State} {m : Mode} (hm : modeOfCode s.cfg.codes (modeField v) = some m)
include hm

theorem modeWrite_lrChange (hlr : lrField v ≠ s.dev.lr) (hmode : s.dev.mode ≠ .sleep) :
    modeWrite v s = .fault .longRangeChangeOutsideSleep := by
  simp only [modeWrite, hm, if_pos (And.intro hlr hmode)]

variable (hkeep : lrField v = s.dev.lr ∨ s.dev.mode = .sleep)
include hkeep

theorem modeWrite_legacy (hactive : modeActive m = true) (hlr : lrField v = false) :
    modeWrite v s = .refuse .legacyModeUnmodelled := by
  simp only [modeWrite, hm, if_neg (not_and_or.mpr (hkeep.imp not_not.mpr not_not.mpr)), if_pos (And.intro hactive hlr)]

theorem modeWrite_offDiagram (hlong : modeActive m = false ∨ lrField v = true)
    (hcell : modeAllowed s.dev.mode m = false) : modeWrite v s = .fault .modeTransitionOffDiagram := by
  have hmodelled : ¬(modeActive m = true ∧ lrField v = false) := by
    rintro ⟨ha, hl⟩
    simp [ha, hl] at hlong
  simp only [modeWrite, hm, if_neg (not_and_or.mpr (hkeep.imp not_not.mpr not_not.mpr)), if_neg hmodelled, if_pos hcell]

end

/-- Settles O21: on a reliable bus with the line released each check of the mode write is the transaction's own. -/
theorem opModeWriteChecks : Obligations.OpModeWriteChecks := by
  unfold Obligations.OpModeWriteChecks
  intro v s hbus hwf
  refine ⟨fun hres => transWrite_of_refuse hbus (modeWrite_reserved hres), fun m hcode => ?_⟩
  have hm : modeOfCode s.cfg.codes (modeField v) = some m := by rw [← hcode, modeOfCode_code hwf]
  refine ⟨fun hlr hmode => transWrite_of_fault hbus (modeWrite_lrChange hm hlr hmode), fun hkeep => ⟨?_, ?_⟩⟩
  · intro hact hlr
    have hactive : modeActive m = true := by rcases hact with rfl | rfl <;> rfl
    exact transWrite_of_refuse hbus (modeWrite_legacy hm hkeep hactive hlr)
  · intro hm' hcell
    have hlong : modeActive m = false ∨ lrField v = true := by
      rcases hm' with rfl | rfl | hlr
      · exact .inl rfl
      · exact .inl rfl
      · exact .inr hlr
    exact transWrite_of_fault hbus (modeWrite_offDiagram hm hkeep hlong (modeAllowed_eq_false_of_mem hcell))

/-! ## What the host requests leave alone -/

/-- Settles O51: a request is held, which only lengthens the port, or the idle controller is faulted, refused or started; a
codec call leaves its result. -/
theorem hostRequestsFrame : Obligations.HostRequestsFrame := by
  unfold Obligations.HostRequestsFrame
  refine ⟨fun req s t h => ?_, fun c n s t h => ?_⟩
  · rw [exec_toInstr] at h
    rcases offer_cases req (badArgument req s.cfg) s with ⟨ho, e⟩ | ⟨ho, -, e⟩ | ⟨ho, -, x, -, e⟩ | ⟨ho, -, -, e⟩ <;>
      cases h.symm.trans e <;>
      refine ⟨rfl, fun _ => rfl, rfl, rfl, rfl, rfl, rfl, rfl, rfl, rfl, rfl, fun hi => ?_, fun hr => ?_⟩
    · exact absurd hi ho
    · exact ⟨rfl, rfl, rfl⟩
    · rfl
    · exact absurd ho hr
    · rfl
    · exact absurd ho hr
    · rfl
    · exact absurd ho hr
  · obtain ⟨r, e⟩ := exec_codecCall c n s
    cases h.symm.trans e
    exact ⟨r, rfl, fun _ => rfl⟩

end Sys2Proof.Machine
end

section
/-! O5: unmapped addresses. Only an access to an address no register has leaves the refusal UnmappedRegister. No instruction
does, and each step of an operation makes no access but at a register's address (`OpStep`). -/

namespace Sys2Proof.Machine

/-! ## An access to an unmapped address -/

theorem runBytes_unmapped {s : State} {a : RegAddr} (h : ∀ r, s.cfg.regMap.addr r ≠ a) (w : Bool) (b1 : Byte) :
    runBytes (byte0 w a) b1 s = transUnmapped s := by
  simp only [runBytes, decode_unmapped h, runDecoded]

/-! ## No instruction is refused so -/

theorem modeEffect_ne_refuse (old new : Mode) (s : State) (x : Refusal) : modeEffect old new s ≠ .refuse x := by
  intro h
  unfold modeEffect at h
  split at h
  · cases h
  · split at h
    · rcases txStart_cases s with ⟨-, e⟩ | ⟨n, -, -, e⟩ | ⟨n, b, -, -, e⟩ <;> cases e.symm.trans h
    · cases h

/-- The refusals of an OP_MODE write (R120). -/
theorem modeWrite_refuse {v : Byte} {s : State} {x : Refusal} (h : modeWrite v s = .refuse x) :
    x = .reservedMode ∨ x = .legacyModeUnmodelled := by
  unfold modeWrite at h
  split at h
  · cases h
    exact .inl rfl
  · split at h
    · cases h
    · split at h
      · cases h
        exact .inr rfl
      · split at h
        · cases h
        · exact absurd h (modeEffect_ne_refuse _ _ _ x)

/-- The refusals of a write (R107, R109, R116, R120). -/
theorem writeRule_refuse {r : RegName} {v : Byte} {s : State} {x : Refusal} (h : writeRule r v s = .refuse x) :
    x = .reservedMode ∨ x = .legacyModeUnmodelled ∨ x = .writeToReadOnly := by
  cases r with
  | opMode => exact (modeWrite_refuse h).imp_right .inl
  | fifo =>
    simp only [writeRule, writeFifo] at h
    split at h <;> cases h
    rename_i hx
    exact absurd hx (fifoAccess_ne_refuse s x)
  | fifoAddrPtr | irqFlags => cases h
  | payloadLength =>
    simp only [writeRule, writeLength] at h
    split at h <;> cases h
  | fifoRxCurrentAddr | rxNbBytes | version =>
    cases h
    exact .inr (.inr rfl)
  | _ =>
    simp only [writeRule, writeConfig] at h
    split at h <;> cases h

/-- What the bus refuses of a write, the register's rule refuses of the byte that arrives (R77). -/
theorem carryWrite_refuse {rule : Byte → State → Acc State} {v : Byte} {s : State} {x : Refusal}
    (h : carryWrite rule v s = .refuse x) : ∃ b t, rule b t = .refuse x := by
  rcases carryWrite_cases rule v s with ⟨-, e⟩ | ⟨-, -, e⟩ | ⟨-, -, e⟩ | ⟨-, -, e⟩ <;> rw [e] at h
  · exact ⟨_, _, h⟩
  · exact ⟨_, _, h⟩
  · exact ⟨_, _, h⟩
  · cases h

/-- The refusals of a request's argument (R63, R129). -/
theorem badArgument_some {req : Request} {p : Params} {x : Refusal} (h : badArgument req p = some x) :
    x = .frequencyOutOfRange ∨ x = .maxLengthZero := by
  cases req with
  | init =>
    rcases buildCheck_cases p with ⟨-, e⟩ | ⟨-, e⟩ <;> cases e.symm.trans h
    exact .inl rfl
  | tryReceive n =>
    simp only [badArgument, receiveCheck] at h
    split at h <;> cases h
    exact .inr rfl
  | reset | setMode | send => cases h

/-- The refusal UnmappedRegister is in `t` only if it is in `s` already. -/
def State.NoNewUnmapped (s t : State) : Prop :=
  t.refusal = some .unmappedRegister → s.refusal = some .unmappedRegister

theorem State.NoNewUnmapped.of_eq {s t : State} (h : t.refusal = s.refusal) : s.NoNewUnmapped t := fun e => h ▸ e

theorem State.NoNewUnmapped.of_refusedFor {s : State} {x : Refusal} (h : x ≠ .unmappedRegister) :
    s.NoNewUnmapped (s.refusedFor x) := fun e => absurd (Option.some.inj e) h

theorem transRead_noNewUnmapped {r : RegName} {s t : State} (h : transRead (readRule r) s = .next t) :
    s.NoNewUnmapped t := by
  rcases transRead_update h with ⟨f, rfl⟩ | ⟨b, n, rfl⟩ | ⟨-, p, b, n, rfl⟩ <;> exact .of_eq rfl

theorem transWrite_noNewUnmapped {r : RegName} {v : Byte} {s t : State} (h : transWrite (writeRule r) v s = .next t) :
    s.NoNewUnmapped t := by
  rcases transWrite_cases (writeRule r) v s with ⟨-, e⟩ | ⟨-, u, hu, e⟩ | ⟨-, f, -, e⟩ | ⟨-, x, hx, e⟩ <;>
    cases h.symm.trans e
  · exact .of_eq rfl
  · exact .of_eq (carryWrite_sameControl hu).refusal
  · exact .of_eq rfl
  · obtain ⟨b, u, hb⟩ := carryWrite_refuse hx
    exact .of_refusedFor (by rcases writeRule_refuse hb with rfl | rfl | rfl <;> decide)

theorem offer_noNewUnmapped {req : Request} {s t : State} (h : offer req (badArgument req s.cfg) s = .next t) :
    s.NoNewUnmapped t := by
  rcases offer_cases req (badArgument req s.cfg) s with ⟨-, e⟩ | ⟨-, -, e⟩ | ⟨-, -, x, hx, e⟩ | ⟨-, -, -, e⟩ <;>
    cases h.symm.trans e
  case inr.inr.inl => exact .of_refusedFor (by rcases badArgument_some hx with rfl | rfl <;> decide)
  all_goals exact .of_eq rfl

/-- No instruction leaves the refusal UnmappedRegister (R66). -/
theorem exec_noNewUnmapped {i : Instr} {s t : State} (h : exec i s = .next t) : s.NoNewUnmapped t := by
  cases hi : i.transaction? with
  | some x =>
    obtain ⟨w, r, b⟩ := x
    rw [exec_transaction hi] at h
    cases w with
    | true => exact transWrite_noNewUnmapped h
    | false => exact transRead_noNewUnmapped h
  | none =>
    rcases request_or_call hi with ⟨req, rfl⟩ | ⟨c, n, rfl⟩
    · rw [exec_toInstr] at h
      exact offer_noNewUnmapped h
    · obtain ⟨r, e⟩ := exec_codecCall c n s
      cases e.symm.trans h
      exact .of_eq rfl

/-! ## The steps of the operations -/

/-- What a step of an operation is (R31, R32, R45): one access at a register's address, after which only the controller moves;
no access, and only the device (in the reset pulse) and the controller move; or the model's own fault (log 22). -/
inductive OpStep (s : State) : Answer → Prop where
  | access {r : RegName} {w : Bool} {b1 : Byte} {k : State → State} (hk : ∀ u, ∃ c, k u = u.setCtl c) :
    OpStep s (andThen (runBytes (byte0 w (s.cfg.regMap.addr r)) b1 s) k)
  | quiet (d : Dev) (c : Ctl) : OpStep s (.next ((s.setDev d).setCtl c))
  | stray : OpStep s (.fault .noSuchStep)

theorem OpStep.read (r : RegName) {k : State → State} {s : State} (hk : ∀ u, ∃ c, k u = u.setCtl c) :
    OpStep s (Machine.andThen (busReadReg r s) k) := .access hk

theorem OpStep.write (r : RegName) (v : Byte) {k : State → State} {s : State} (hk : ∀ u, ∃ c, k u = u.setCtl c) :
    OpStep s (Machine.andThen (busWriteReg r v s) k) := .access hk

theorem OpStep.moveOn (c : Ctl) {s : State} : OpStep s (.next (s.setCtl c)) := .quiet s.dev c

/-- A step of the reset pulse moves only the device and the controller (R117). -/
theorem resetStep_eq {n : Nat} {s t : State} (h : resetStep n s = some t) : t = (s.setDev t.dev).setCtl t.ctl := by
  unfold resetStep at h
  split at h <;> cases h <;> rfl

theorem afterPoll_eq (bytes : List Byte) (loc : Locals) (u : State) : ∃ c, afterPoll bytes loc u = u.setCtl c := by
  unfold afterPoll
  split
  · exact ⟨_, rfl⟩
  · split <;> exact ⟨_, rfl⟩

theorem afterFlags_eq (n : Nat) (loc : Locals) (u : State) : ∃ c, afterFlags n loc u = u.setCtl c := by
  unfold afterFlags
  split <;> exact ⟨_, rfl⟩

theorem stepReset_opStep (pc : Nat) (loc : Locals) (s : State) : OpStep s (stepReset pc loc s) := by
  unfold stepReset
  split
  · exact .stray
  · rename_i t ht
    rw [resetStep_eq ht]
    split <;> exact .quiet t.dev _

theorem stepInit_opStep (pc sub : Nat) (loc : Locals) (s : State) : OpStep s (stepInit pc sub loc s) := by
  unfold stepInit
  split
  · split
    · exact .stray
    · rename_i t ht
      rw [resetStep_eq ht]
      split <;> exact .quiet t.dev _
  · exact .read _ fun _ => ⟨_, rfl⟩
  · split <;> exact .moveOn _
  · exact .moveOn _
  · split
    · exact .write _ _ fun _ => ⟨_, rfl⟩
    · exact .stray

theorem stepSetMode_opStep (m : Mode) (pc : Nat) (s : State) : OpStep s (stepSetMode m pc s) := by
  unfold stepSetMode
  split
  · exact .write _ _ fun _ => ⟨_, rfl⟩
  · exact .stray

theorem stepSend_opStep (bytes : List Byte) (pc sub : Nat) (loc : Locals) (s : State) :
    OpStep s (stepSend bytes pc sub loc s) := by
  unfold stepSend
  split
  · split <;> exact .moveOn _
  · exact .write _ _ fun _ => ⟨_, rfl⟩
  · exact .write _ _ fun _ => ⟨_, rfl⟩
  · split
    · exact .write _ _ fun _ => ⟨_, rfl⟩
    · exact .moveOn _
  · exact .write _ _ fun _ => ⟨_, rfl⟩
  · exact .write _ _ fun _ => ⟨_, rfl⟩
  · exact .read _ (afterPoll_eq bytes loc)
  · exact .write _ _ fun _ => ⟨_, rfl⟩
  · exact .stray

theorem stepTryReceive_opStep (n pc sub : Nat) (loc : Locals) (s : State) :
    OpStep s (stepTryReceive n pc sub loc s) := by
  unfold stepTryReceive
  split
  · exact .write _ _ fun _ => ⟨_, rfl⟩
  · exact .read _ (afterFlags_eq n loc)
  · exact .write _ _ fun _ => ⟨_, rfl⟩
  · exact .read _ fun _ => ⟨_, rfl⟩
  · split
    · exact .read _ fun _ => ⟨_, rfl⟩
    · exact .write _ _ fun _ => ⟨_, rfl⟩
    · exact .stray
  · split
    · exact .read _ fun _ => ⟨_, rfl⟩
    · exact .moveOn _
  · exact .stray

theorem stepOp_opStep (req : Request) (pc sub : Nat) (loc : Locals) (s : State) : OpStep s (stepOp req pc sub loc s) := by
  cases req with
  | reset => exact stepReset_opStep pc loc s
  | init => exact stepInit_opStep pc sub loc s
  | setMode m => exact stepSetMode_opStep m pc s
  | send bytes => exact stepSend_opStep bytes pc sub loc s
  | tryReceive n => exact stepTryReceive_opStep n pc sub loc s

/-! ## No turn issues such an access of its own -/

/-- An access at a register's address runs an instruction, whatever the map (R66). -/
theorem runBytes_addr (r : RegName) (w : Bool) (b1 : Byte) (s : State) :
    ∃ i, runBytes (byte0 w (s.cfg.regMap.addr r)) b1 s = exec i s := by
  obtain ⟨i, hi⟩ := decode_byte0_addr s.cfg.regMap r w b1 []
  exact ⟨i, by simp only [runBytes, hi, runDecoded]⟩

theorem OpStep.noNewUnmapped {s t : State} {a : Answer} (h : OpStep s a) (ha : a = .next t) : s.NoNewUnmapped t := by
  cases h with
  | @access r w b1 k hk =>
    obtain ⟨i, hi⟩ := runBytes_addr r w b1 s
    obtain ⟨u, hu⟩ := exec_next i s
    have hno := exec_noNewUnmapped hu
    rw [hi, hu, andThen_next] at ha
    split at ha <;> cases ha
    · exact hno
    · obtain ⟨c, hc⟩ := hk u
      rw [hc]
      exact hno
  | quiet d c =>
    cases ha
    exact .of_eq rfl
  | stray => cases ha

/-- A turn of the controller that serves no access from outside leaves no refusal UnmappedRegister (R66; log 18). -/
theorem controllerTurn_noNewUnmapped {s t : State} (hb : s.ctl.op ≠ .idle ∨ s.busCalls = [])
    (h : controllerTurn s = .next t) : s.NoNewUnmapped t := by
  unfold controllerTurn at h
  split at h
  · rename_i c more _
    exact exec_noNewUnmapped (s := s.setCalls more) h
  · split at h
    · exact (stepOp_opStep ..).noNewUnmapped h
    · rename_i ho
      simp only [idleTurn, hb.resolve_left (not_not.mpr ho)] at h
      split at h
      · rename_i req held _
        exact exec_noNewUnmapped (s := s.setPort held) h
      · cases h
        exact .of_eq rfl

/-- Settles O5: the decoder and the bus at an unmapped address, the discarded single byte, and the turns of the controller. -/
theorem unmappedAddressIsRefused : Obligations.UnmappedAddressIsRefused := by
  unfold Obligations.UnmappedAddressIsRefused
  refine ⟨fun m a w b1 rest h => decode_unmapped h w b1 rest, fun s a w b1 h => ⟨fun hl => ?_, fun hl => ?_⟩,
    fun s b more => rfl, fun m r w w' b1 a rest rest' h => ?_,
    fun s t hb hs ht => mt (controllerTurn_noNewUnmapped hb ht) hs⟩
  · simp only [runBytes_unmapped h, transUnmapped, hl, refuse]
  · simp only [runBytes_unmapped h, transUnmapped, hl, raise]
  · obtain ⟨i, hi⟩ := decode_byte0_addr m r w b1 rest
    cases hi.symm.trans h

end Sys2Proof.Machine
end

section
/-! O6, O46: the frequency word with the refusal at build, and what the controller's turn of a built, unstopped node runs. -/

namespace Sys2Proof.Machine

/-! ## The frequency word -/

/-- The word is the exact quotient plus one half, rounded down (R63). -/
theorem frfNumber_nearest (f : Nat) : 2 * frfNumber f * Config.xtalHz ≤ 2 * (f * 2 ^ 19) + Config.xtalHz ∧
    2 * (f * 2 ^ 19) + Config.xtalHz < 2 * frfNumber f * Config.xtalHz + 2 * Config.xtalHz := by
  simp only [frfNumber, Config.xtalHz]
  omega

/-- A configuration that is refused at build fails the parameter check (R63). -/
theorem Params.wf_of_frf_too_large {p : Params} (h : 2 ^ 24 ≤ frfNumber p.freqHz) : p.wf = false := by
  have hfreq : p.freqOk = false := Bool.eq_false_iff.mpr fun hf => absurd (frfFits_iff.mp hf) (Nat.not_lt.mpr h)
  simp only [Params.wf, hfreq, Bool.and_false, Bool.false_and]

theorem buildCheck_of_frf_too_large {p : Params} (h : 2 ^ 24 ≤ frfNumber p.freqHz) :
    buildCheck p = some .frequencyOutOfRange := by
  rcases buildCheck_cases p with ⟨hlt, -⟩ | ⟨-, e⟩
  · exact absurd hlt (Nat.not_lt.mpr h)
  · exact e

/-- No move answers a refusal: refusals are marks in a next state (R146). -/
theorem agentMove_ne_refused (a : Turn) (s : State) (x : Refusal) : agentMove a s ≠ .refused x := by
  cases a with
  | controller =>
    intro h
    rcases controllerTurn_cases s with e | ⟨_, _, _, _, _, -, e⟩ <;> cases e.symm.trans h
  | txComplete | rxDeliver | hostRequest | hostCodecCall | hostTakesResult => exact nofun

/-- The step of a node with no mark is refused exactly when its configuration is refused at build (R63; log 8). -/
theorem step_refused_iff {s : State} (hf : s.fault = none) (hr : s.refusal = none) :
    2 ^ 24 ≤ frfNumber s.cfg.freqHz ↔ step s = .refused .frequencyOutOfRange := by
  constructor
  · intro h
    simp only [step, nodeStep, hf, hr, buildCheck_of_frf_too_large h]
  · intro h
    by_contra hlt
    rw [step_running hf hr (Nat.not_le.mp hlt)] at h
    cases ha : agentMove s.turn s with
    | next t => simp [ha, withNextTurn] at h
    | fault f => simp [ha, withNextTurn] at h
    | refused x => exact agentMove_ne_refused s.turn s x ha

/-- Settles O6: the word by its bounds, 915 MHz by its value, and the build check at power-on, in a step and in `init`. -/
theorem frequencyWordIsNearest : Obligations.FrequencyWordIsNearest := by
  unfold Obligations.FrequencyWordIsNearest
  refine ⟨frfNumber_nearest, by decide, fun p => ⟨fun h => ⟨buildCheck_of_frf_too_large h, Params.wf_of_frf_too_large h⟩,
    fun h => ?_⟩, fun s hf hr => step_refused_iff hf hr, fun s ho hl h => ?_⟩
  · rw [State.powerOn, buildCheck_eq_none.mpr h]
    rfl
  · simp only [exec, execInit, offer, ho, hl, takenIn, buildCheck_of_frf_too_large h, decide_true, if_true, refuse]

/-! ## What the controller's turn runs -/

/-- Settles O46: the step is the controller's turn, which looks at the codec calls, the bus calls and the port in this order. -/
theorem stepRunsTheDecodedInstruction : Obligations.StepRunsTheDecodedInstruction := by
  unfold Obligations.StepRunsTheDecodedInstruction
  intro s hf hr hb hturn
  have hstep : step s = withNextTurn (controllerTurn s) := by rw [step_running hf hr hb, hturn, agentMove]
  rw [hstep]
  refine ⟨fun bytes i rest more hc ho hbus hdec => ?_, fun req held hc ho hbus hport => ?_, fun c more hc => ?_⟩
  · simp only [controllerTurn, hc, ho, idleTurn, hbus, serveBusCall, hdec, runDecoded, Decoded.rest]
  · simp only [controllerTurn, hc, ho, idleTurn, hbus, hport]
  · simp only [controllerTurn, hc]

end Sys2Proof.Machine
end

section
/-! O18, O47: accesses and the reset line. With the line released no access raises TxnDuringReset, and an operation whose
position is legal makes no access while the line is low. O47 is the instruction that the controller's two bytes run. -/

namespace Sys2Proof.Machine

/-- Settles O47: at a register's address the decoder reads that register's transaction. -/
theorem controllerAccessesRunTheInstruction : Obligations.ControllerAccessesRunTheInstruction := by
  unfold Obligations.ControllerAccessesRunTheInstruction
  intro r v s hwf
  have hrun : ∀ w b1, runBytes (byte0 w (s.cfg.regMap.addr r)) b1 s = exec (Instr.ofTransaction w r b1) s := fun w b1 => by
    simp only [runBytes, decode_transaction hwf, runDecoded]
  exact ⟨hrun false dummyByte, hrun true v⟩

/-! ## An access while the line is low -/

theorem transRead_of_asserted {s : State} (h : s.dev.resetLine = .asserted) (rule : State → Acc (Byte × State)) :
    transRead rule s = .next (s.faulted .txnDuringReset) := by
  simp only [transRead, h, raise_eq]

theorem transWrite_of_asserted {s : State} (h : s.dev.resetLine = .asserted) (rule : Byte → State → Acc State) (v : Byte) :
    transWrite rule v s = .next (s.faulted .txnDuringReset) := by
  simp only [transWrite, h, raise_eq]

theorem exec_of_asserted {i : Instr} {s : State} (hi : i.transaction?.isSome = true) (h : s.dev.resetLine = .asserted) :
    exec i s = .next (s.faulted .txnDuringReset) := by
  obtain ⟨⟨w, r, b⟩, htr⟩ := Option.isSome_iff_exists.mp hi
  rw [exec_transaction htr]
  cases w with
  | true => exact transWrite_of_asserted h _ b
  | false => exact transRead_of_asserted h _

/-! ## No register's rule raises the fault -/

theorem fifoAccess_ne_txnDuringReset (s : State) : fifoAccess s ≠ .fault .txnDuringReset := by
  unfold fifoAccess
  cases s.dev.mode <;> cases s.reg .fifoAddrPtr <;> simp

theorem readRule_ne_txnDuringReset (r : RegName) (s : State) : readRule r s ≠ .fault .txnDuringReset := by
  intro h
  by_cases hr : r = .fifo
  · subst hr
    simp only [readRule, readFifo] at h
    split at h <;> cases h
    rename_i hf
    exact fifoAccess_ne_txnDuringReset s hf
  · obtain ⟨v, n, e⟩ := readRule_draws hr s
    cases e.symm.trans h

theorem modeEffect_ne_txnDuringReset (old new : Mode) (s : State) : modeEffect old new s ≠ .fault .txnDuringReset := by
  intro h
  unfold modeEffect at h
  split at h
  · cases h
  · split at h
    · rcases txStart_cases s with ⟨-, e⟩ | ⟨n, -, -, e⟩ | ⟨n, b, -, -, e⟩ <;> cases e.symm.trans h
    · cases h

theorem modeWrite_ne_txnDuringReset (v : Byte) (s : State) : modeWrite v s ≠ .fault .txnDuringReset := by
  intro h
  unfold modeWrite at h
  split at h
  · cases h
  · split at h
    · cases h
    · split at h
      · cases h
      · split at h
        · cases h
        · exact modeEffect_ne_txnDuringReset _ _ _ h

theorem writeRule_ne_txnDuringReset (r : RegName) (v : Byte) (s : State) : writeRule r v s ≠ .fault .txnDuringReset := by
  intro h
  cases r with
  | opMode => exact modeWrite_ne_txnDuringReset v s h
  | fifo =>
    simp only [writeRule, writeFifo] at h
    split at h <;> cases h
    rename_i hf
    exact fifoAccess_ne_txnDuringReset s hf
  | fifoAddrPtr | irqFlags | fifoRxCurrentAddr | rxNbBytes | version => cases h
  | payloadLength =>
    simp only [writeRule, writeLength] at h
    split at h <;> cases h
  | _ =>
    simp only [writeRule, writeConfig] at h
    split at h <;> cases h

theorem carryWrite_ne_txnDuringReset (r : RegName) (v : Byte) (s : State) :
    carryWrite (writeRule r) v s ≠ .fault .txnDuringReset := by
  intro h
  rcases carryWrite_cases (writeRule r) v s with ⟨-, e⟩ | ⟨-, -, e⟩ | ⟨-, -, e⟩ | ⟨-, -, e⟩ <;> rw [e] at h
  · exact writeRule_ne_txnDuringReset r _ _ h
  · exact writeRule_ne_txnDuringReset r _ _ h
  · exact writeRule_ne_txnDuringReset r _ _ h
  · cases h

/-! ## Instructions and accesses with the line released -/

/-- The answer does not leave the fault TxnDuringReset. -/
structure NoResetFault (a : Answer) : Prop where
  fault_ne : ∀ t, a = .next t → t.fault ≠ some .txnDuringReset

theorem NoResetFault.of_ne {t : State} (h : t.fault ≠ some .txnDuringReset) : NoResetFault (.next t) := by
  refine ⟨?_⟩
  rintro _ ⟨⟩
  exact h

theorem NoResetFault.of_faulted (s : State) {f : Fault} (h : f ≠ .txnDuringReset) : NoResetFault (.next (s.faulted f)) :=
  .of_ne fun e => h (Option.some.inj e)

/-- What an operation does after its access moves no mark. -/
theorem NoResetFault.andThen {a : Answer} {k : State → State} (h : NoResetFault a)
    (hk : ∀ u, ∃ c, k u = u.setCtl c) : NoResetFault (andThen a k) := by
  cases a with
  | next u =>
    rw [andThen_next]
    split
    · exact h
    · obtain ⟨c, hc⟩ := hk u
      rw [hc]
      exact .of_ne (h.fault_ne u rfl)
  | fault f => exact ⟨fun _ e => nomatch e⟩
  | refused r => exact ⟨fun _ e => nomatch e⟩

section
variable {s : State} (hs : s.fault ≠ some .txnDuringReset)
include hs

theorem offer_noResetFault (req : Request) (bad : Option Refusal) : NoResetFault (offer req bad s) := by
  rcases offer_cases req bad s with ⟨-, e⟩ | ⟨-, -, e⟩ | ⟨-, -, x, -, e⟩ | ⟨-, -, -, e⟩ <;> rw [e]
  · exact .of_ne hs
  · exact .of_faulted s (by decide)
  · exact .of_ne hs
  · exact .of_ne hs

theorem codecCall_noResetFault (c : CodecCall) (n : Nat) : NoResetFault (exec (c.toInstr n) s) := by
  obtain ⟨r, e⟩ := exec_codecCall c n s
  rw [e]
  exact .of_ne hs

variable (hl : s.dev.resetLine = .released)
include hl

theorem transRead_noResetFault (r : RegName) : NoResetFault (transRead (readRule r) s) := by
  rcases transRead_cases (readRule r) s with ⟨ha, -⟩ | ⟨-, v, u, hu, e⟩ | ⟨-, f, hf, e⟩ | ⟨-, x, -, e⟩
  · cases hl.symm.trans ha
  · rw [e]
    exact .of_ne (((readRule_sameControl hu).trans (State.sameControl_received u v)).fault ▸ hs)
  · rw [e]
    exact .of_faulted s fun hr => readRule_ne_txnDuringReset r s (hr ▸ hf)
  · rw [e]
    exact .of_ne hs

theorem transWrite_noResetFault (r : RegName) (v : Byte) : NoResetFault (transWrite (writeRule r) v s) := by
  rcases transWrite_cases (writeRule r) v s with ⟨ha, -⟩ | ⟨-, u, hu, e⟩ | ⟨-, f, hf, e⟩ | ⟨-, x, -, e⟩
  · cases hl.symm.trans ha
  · rw [e]
    exact .of_ne ((carryWrite_sameControl hu).fault ▸ hs)
  · rw [e]
    exact .of_faulted s fun hr => carryWrite_ne_txnDuringReset r v s (hr ▸ hf)
  · rw [e]
    exact .of_ne hs

theorem exec_noResetFault (i : Instr) : NoResetFault (exec i s) := by
  cases hi : i.transaction? with
  | some x =>
    obtain ⟨w, r, b⟩ := x
    rw [exec_transaction hi]
    cases w with
    | true => exact transWrite_noResetFault hs hl r b
    | false => exact transRead_noResetFault hs hl r
  | none =>
    rcases request_or_call hi with ⟨req, rfl⟩ | ⟨c, n, rfl⟩
    · rw [exec_toInstr]
      exact offer_noResetFault hs ..
    · exact codecCall_noResetFault hs ..

theorem runDecoded_noResetFault (d : Decoded) : NoResetFault (runDecoded d s) := by
  cases d with
  | instr i rest => exact exec_noResetFault hs hl i
  | unmapped w a rest =>
    simp only [runDecoded, transUnmapped, hl, refuse_eq]
    exact .of_ne hs
  | incomplete => exact .of_ne hs

theorem busByAddress_noResetFault (w : Bool) (a b1 : Byte) : NoResetFault (busByAddress w a b1 s) := by
  unfold busByAddress
  cases addressOperand a with
  | none => exact .of_ne hs
  | some a7 => exact runDecoded_noResetFault hs hl _

theorem serveBusCall_noResetFault (c : BusCall) (more : List BusCall) : NoResetFault (serveBusCall c more s) := by
  cases c with
  | raw bytes =>
    exact runDecoded_noResetFault (s := s.setBusCalls (keepRaw (Decoded.rest (decode s.cfg.regMap bytes)) more)) hs hl _
  | read a => exact busByAddress_noResetFault (s := s.setBusCalls more) hs hl false a dummyByte
  | write a v => exact busByAddress_noResetFault (s := s.setBusCalls more) hs hl true a v

theorem idleTurn_noResetFault : NoResetFault (idleTurn s) := by
  unfold idleTurn
  split
  · exact serveBusCall_noResetFault hs hl ..
  · split
    · rename_i req held _
      exact exec_noResetFault (s := s.setPort held) hs hl req.toInstr
    · exact .of_ne hs

theorem OpStep.noResetFault {a : Answer} (h : OpStep s a) : NoResetFault a := by
  cases h with
  | access hk => exact (runDecoded_noResetFault hs hl _).andThen hk
  | quiet d c => exact .of_ne hs
  | stray => exact ⟨fun _ e => nomatch e⟩

end

/-! ## Steps from a legal position -/

/-- With the line low a legal position is inside the pulse, whose steps make no access (R29, R117). -/
theorem stepOp_in_pulse {req : Request} {pc sub : Nat} {loc : Locals} {s : State}
    (h : opAtStep (.running req pc sub loc) s.dev.resetLine) (hl : s.dev.resetLine = .asserted) :
    ∃ d c, stepOp req pc sub loc s = .next ((s.setDev d).setCtl c) := by
  rw [hl] at h
  cases req with
  | reset =>
    obtain ⟨-, -, hpulse⟩ := h
    rcases hpulse.mp rfl with rfl | rfl <;> exact ⟨_, _, rfl⟩
  | init =>
    obtain ⟨-, -, -, hpulse⟩ := h
    obtain ⟨rfl, rfl | rfl⟩ := hpulse.mp rfl <;> exact ⟨_, _, rfl⟩
  | setMode m => cases h.2
  | send bytes => cases h.2.2.2
  | tryReceive n => cases h.2.2.2

section
variable {s : State} (hs : s.fault ≠ some .txnDuringReset)
include hs

theorem stepOp_noResetFault {req : Request} {pc sub : Nat} {loc : Locals}
    (h : opAtStep (.running req pc sub loc) s.dev.resetLine) : NoResetFault (stepOp req pc sub loc s) := by
  cases hl : s.dev.resetLine with
  | released => exact (stepOp_opStep ..).noResetFault hs hl
  | asserted =>
    obtain ⟨d, c, e⟩ := stepOp_in_pulse h hl
    rw [e]
    exact .of_ne hs

variable (h : s.positionOk)
include h

theorem controllerTurn_noResetFault : NoResetFault (controllerTurn s) := by
  unfold controllerTurn
  split
  · rename_i c more _
    exact codecCall_noResetFault (s := s.setCalls more) hs c _
  · split
    · rename_i ho
      rw [State.positionOk, ho] at h
      exact stepOp_noResetFault hs h
    · rename_i ho
      exact idleTurn_noResetFault hs (State.line_of_idle h ho)

theorem agentMove_noResetFault (a : Turn) : NoResetFault (agentMove a s) := by
  cases a with
  | controller => exact controllerTurn_noResetFault hs h
  | txComplete =>
    rcases txComplete_cases s with e | ⟨f, -, -, e⟩ <;> rw [agentMove, e] <;> exact .of_ne hs
  | rxDeliver =>
    rcases rxDeliver_cases s with e | ⟨start, n, -, e⟩ <;> rw [agentMove, e] <;> exact .of_ne hs
  | hostRequest | hostCodecCall | hostTakesResult => exact .of_ne hs

end

/-- Settles O18: a transaction looks at the line first, and from a legal position the line is released at every access. -/
theorem noTransactionDuringReset : Obligations.NoTransactionDuringReset := by
  unfold Obligations.NoTransactionDuringReset
  refine ⟨fun i s hi hl => exec_of_asserted hi hl, fun s t hpos ht => ?_⟩
  obtain ⟨hnone, -, -, u, hu, rfl⟩ := step_next ht
  exact (agentMove_noResetFault (by simp [hnone]) hpos s.turn).fault_ne u hu

end Sys2Proof.Machine
end

section
/-! O19, O20: the unreliable bus. A register's rule looks at no other parameter of the bus, so on a node whose bus is made
reliable it does the same; what is left is the byte that arrives and the byte that comes back. -/

namespace Sys2Proof.Machine

/-- The same node on a reliable bus. -/
def State.onReliableBus (s : State) : State := { s with cfg := { s.cfg with busReliable := true } }

/-- What a rule gives, with its value mapped. -/
def Acc.map {α β : Type} (f : α → β) : Acc α → Acc β
  | .done a => .done (f a)
  | .fault x => .fault x
  | .refuse x => .refuse x

@[simp] theorem State.onReliableBus_dev (s : State) : s.onReliableBus.dev = s.dev := rfl
@[simp] theorem State.onReliableBus_codes (s : State) : s.onReliableBus.cfg.codes = s.cfg.codes := rfl
@[simp] theorem State.onReliableBus_reg (s : State) (q : StoreReg) : s.onReliableBus.reg q = s.reg q := rfl
@[simp] theorem State.onReliableBus_buf (s : State) (p : Byte) : s.onReliableBus.buf p = s.buf p := rfl

/-! ## The rules on a reliable bus -/

@[simp] theorem fifoAccess_onReliableBus (s : State) : fifoAccess s.onReliableBus = fifoAccess s := rfl

@[simp] theorem State.valueOf_onReliableBus (s : State) (c : Cell 8) :
    s.onReliableBus.valueOf c = Prod.map id State.onReliableBus (s.valueOf c) := by
  cases c <;> rfl

theorem readFifo_onReliableBus (s : State) :
    readFifo s.onReliableBus = (readFifo s).map (Prod.map id State.onReliableBus) := by
  simp only [readFifo, fifoAccess_onReliableBus, State.onReliableBus_buf, State.valueOf_onReliableBus]
  cases fifoAccess s <;> rfl

theorem readRule_onReliableBus (r : RegName) (s : State) :
    readRule r s.onReliableBus = (readRule r s).map (Prod.map id State.onReliableBus) := by
  cases r with
  | fifo => exact readFifo_onReliableBus s
  | opMode =>
    simp only [readRule, readOpMode, State.onReliableBus_dev]
    cases s.dev.mid <;> rfl
  | irqFlags | version => rfl
  | _ => exact congrArg Acc.done (State.valueOf_onReliableBus s _)

theorem captureFrame_onReliableBus (n : Nat) (b : Byte) (s : State) :
    captureFrame n b s.onReliableBus = Prod.map id State.onReliableBus (captureFrame n b s) := by
  induction n generalizing b s with
  | zero => rfl
  | succ n ih =>
    simp only [captureFrame, State.onReliableBus_buf, State.valueOf_onReliableBus, Prod.map_fst, Prod.map_snd, ih]
    rfl

theorem txStart_onReliableBus (s : State) : txStart s.onReliableBus = (txStart s).map State.onReliableBus := by
  simp only [txStart, State.onReliableBus_reg, captureFrame_onReliableBus]
  cases s.reg .payloadLength with
  | unknown => rfl
  | known n => cases s.reg .fifoTxBaseAddr <;> rfl

theorem txAbort_onReliableBus (s : State) : txAbort s.onReliableBus = (txAbort s).onReliableBus := by
  simp only [txAbort, State.onReliableBus_dev]
  cases s.dev.txJob <;> rfl

theorem modeEffect_onReliableBus (old new : Mode) (s : State) :
    modeEffect old new s.onReliableBus = (modeEffect old new s).map State.onReliableBus := by
  unfold modeEffect
  split
  · exact congrArg Acc.done (txAbort_onReliableBus s)
  · split
    · exact txStart_onReliableBus s
    · rfl

theorem modeWrite_onReliableBus (v : Byte) (s : State) :
    modeWrite v s.onReliableBus = (modeWrite v s).map State.onReliableBus := by
  unfold modeWrite
  rw [State.onReliableBus_codes, State.onReliableBus_dev]
  cases modeOfCode s.cfg.codes (modeField v) with
  | none => rfl
  | some m =>
    simp only []
    split
    · rfl
    · split
      · rfl
      · split
        · rfl
        · exact modeEffect_onReliableBus s.dev.mode m (s.setMode (lrField v) (midField v) m)

theorem writeFifo_onReliableBus (v : Byte) (s : State) :
    writeFifo v s.onReliableBus = (writeFifo v s).map State.onReliableBus := by
  simp only [writeFifo, fifoAccess_onReliableBus]
  cases fifoAccess s <;> rfl

theorem writeConfig_onReliableBus (q : StoreReg) (v : Byte) (s : State) :
    writeConfig q v s.onReliableBus = (writeConfig q v s).map State.onReliableBus := by
  unfold writeConfig
  rw [State.onReliableBus_dev]
  split <;> rfl

theorem writeLength_onReliableBus (v : Byte) (s : State) :
    writeLength v s.onReliableBus = (writeLength v s).map State.onReliableBus := by
  unfold writeLength
  rw [State.onReliableBus_dev]
  split <;> rfl

theorem writeRule_onReliableBus (r : RegName) (v : Byte) (s : State) :
    writeRule r v s.onReliableBus = (writeRule r v s).map State.onReliableBus := by
  cases r with
  | fifo => exact writeFifo_onReliableBus v s
  | opMode => exact modeWrite_onReliableBus v s
  | payloadLength => exact writeLength_onReliableBus v s
  | fifoAddrPtr | irqFlags | fifoRxCurrentAddr | rxNbBytes | version => rfl
  | _ => exact writeConfig_onReliableBus _ v s

/-! ## Writes -/

section
variable {rule : Byte → State → Acc State} {v : Byte} {s : State} (hb : s.cfg.busReliable = false)
include hb

theorem carryWrite_asSent (hf : Config.freeFate s.free = .asSent) : carryWrite rule v s = rule v s.tick := by
  simp [carryWrite, hb, hf]

theorem carryWrite_altered (hf : Config.freeFate s.free = .altered) :
    carryWrite rule v s = rule (Config.freeByte (s.free + 1)) s.tick.tick := by
  simp [carryWrite, hb, hf]

theorem carryWrite_lost (hf : Config.freeFate s.free = .lost) : carryWrite rule v s = .done s.tick := by
  simp [carryWrite, hb, hf]

end

/-- `u` and `t` agree on the device, the emissions, the controller and the marks. -/
def State.SameEffect (u t : State) : Prop :=
  u.dev = t.dev ∧ u.air = t.air ∧ u.ctl = t.ctl ∧ u.fault = t.fault ∧ u.refusal = t.refusal

/-- When the unreliable bus gives the rule the byte `b` after some draws, the write does what the reliable bus does with `b`
after these draws. -/
theorem transWrite_sameEffect {r : RegName} {v b : Byte} {s : State} {n : Nat} (hl : s.dev.resetLine = .released)
    (hc : carryWrite (writeRule r) v s = writeRule r b (s.setFree n)) :
    ∃ t u, transWrite (writeRule r) v s = .next u ∧
      transWrite (writeRule r) b (s.setFree n).onReliableBus = .next t ∧ u.SameEffect t := by
  have hready : (s.setFree n).onReliableBus.busReady := ⟨hl, rfl⟩
  have hrule := writeRule_onReliableBus r b (s.setFree n)
  simp only [transWrite, hl, hc]
  cases hw : writeRule r b (s.setFree n) with
  | done q =>
    rw [hw] at hrule
    exact ⟨_, _, rfl, transWrite_of_done hready.1 hready.2 hrule, rfl, rfl, rfl, rfl, rfl⟩
  | fault f =>
    rw [hw] at hrule
    exact ⟨_, _, rfl, transWrite_of_fault hready hrule, rfl, rfl, rfl, rfl, rfl⟩
  | refuse x =>
    rw [hw] at hrule
    exact ⟨_, _, rfl, transWrite_of_refuse hready hrule, rfl, rfl, rfl, rfl, rfl⟩

/-- Settles O19: the draw decides what `carryWrite` does with the byte, and the register's rule is that of the reliable bus. -/
theorem unreliableWrites : Obligations.UnreliableWrites := by
  unfold Obligations.UnreliableWrites
  intro r v s hl hb
  simp only [exec_ofWrite]
  split
  next hfate => simp only [transWrite, hl, carryWrite_lost hb hfate]
  next hfate => exact transWrite_sameEffect (n := s.free + 1) hl (carryWrite_asSent hb hfate)
  next hfate => exact transWrite_sameEffect (n := s.free + 1 + 1) hl (carryWrite_altered hb hfate)

/-! ## Reads -/

theorem State.valueOf_cfg (s : State) (c : Cell 8) : (s.valueOf c).2.cfg = s.cfg := by
  cases c <;> rfl

theorem readStored_draws_forward {q : StoreReg} {s t : State} {v : Byte} (h : readStored q s = .done (v, t)) :
    t.cfg = s.cfg ∧ s.free ≤ t.free := by
  have ht : (s.valueOf (s.reg q)).2 = t := congrArg Prod.snd (Acc.done.inj h)
  rw [← ht]
  exact ⟨State.valueOf_cfg s (s.reg q), (State.valueOf_frame s (s.reg q)).2⟩

/-- A read leaves the parameters alone, and its draws only go forward (R16, R79 to R97). -/
theorem readRule_draws_forward {r : RegName} {s t : State} {v : Byte} (h : readRule r s = .done (v, t)) :
    t.cfg = s.cfg ∧ s.free ≤ t.free := by
  cases r with
  | fifo =>
    simp only [readRule, readFifo] at h
    split at h <;> cases h
    rename_i p _
    exact ⟨State.valueOf_cfg s (s.buf p), (State.valueOf_frame s (s.buf p)).2⟩
  | opMode =>
    simp only [readRule, readOpMode] at h
    cases hm : s.dev.mid <;> rw [hm] at h <;> cases h
    · exact ⟨rfl, Nat.le_refl _⟩
    · exact ⟨rfl, Nat.le_succ _⟩
  | irqFlags => cases h; exact ⟨rfl, Nat.le_succ _⟩
  | version => cases h; exact ⟨rfl, Nat.le_refl _⟩
  | _ => exact readStored_draws_forward h

theorem transRead_of_fault {rule : State → Acc (Byte × State)} {s : State} {f : Fault} (hl : s.dev.resetLine = .released)
    (hr : rule s = .fault f) : transRead rule s = .next (s.faulted f) := by
  simp only [transRead, hl, hr, raise_eq]

/-- Settles O20: the register's rule is that of the reliable bus, and the byte that comes back is a draw. -/
theorem unreliableReads : Obligations.UnreliableReads := by
  unfold Obligations.UnreliableReads
  intro r d s t hl hb _ ht
  rw [exec_ofRead] at ht ⊢
  have hrule := readRule_onReliableBus r s
  rcases transRead_cases (readRule r) s with ⟨ha, -⟩ | ⟨-, v, q, hq, e⟩ | ⟨-, f, hq, e⟩ | ⟨-, x, hq, -⟩
  · cases hl.symm.trans ha
  · rw [hq] at hrule
    obtain ⟨hcfg, hfree⟩ := readRule_draws_forward hq
    have hunreliable : q.cfg.busReliable = false := hcfg ▸ hb
    cases ht.symm.trans (transRead_of_done (s := s.onReliableBus) hl hrule)
    rw [e, State.received_unreliable hunreliable, State.received_reliable rfl]
    exact ⟨_, rfl, rfl, rfl, rfl, rfl, rfl, fun _ => ⟨q.free, hfree, rfl⟩⟩
  · rw [hq] at hrule
    cases ht.symm.trans (transRead_of_fault (s := s.onReliableBus) hl hrule)
    exact ⟨_, e, rfl, rfl, rfl, rfl, rfl, nofun⟩
  · exact absurd hq (readRule_ne_refuse r s x)

end Sys2Proof.Machine
end

section
/-! O7 to O17: each register's read and write on a reliable bus. A transaction is its register's rule with the response bytes
around it, so each statement is what one rule gives. -/

namespace Sys2Proof.Machine

/-- A read that goes through answers the value of the register's rule (R74). -/
theorem transRead_of_value {rule : State → Acc (Byte × State)} {s t : State} {v : Byte} (h : s.busReady)
    (hr : rule s = .done (v, t)) (hc : t.cfg = s.cfg) : transRead rule s = .next (t.respond v) := by
  obtain ⟨hl, hb⟩ := h
  rw [transRead_of_done hl hr, State.received_reliable (hc ▸ hb)]

/-! ## The storage registers -/

theorem readRule_name (r : StoreReg) : readRule r.name = readStored r := by
  cases r <;> rfl

theorem writeRule_name {r : StoreReg} (hr : r.isConfig = true) : writeRule r.name = writeConfig r := by
  cases r with
  | fifoAddrPtr | fifoRxCurrentAddr | rxNbBytes | payloadLength => cases hr
  | _ => rfl

/-- Every storage register is read the same way, in every mode (R16, R81 to R88, R90 to R96). -/
theorem exec_read_stored {s : State} (h : s.busReady) (r : StoreReg) (d : Byte) :
    (∀ v, s.reg r = .known v → exec (Instr.ofRead d r.name) s = .next (s.respond v)) ∧
    (s.reg r = .unknown → exec (Instr.ofRead d r.name) s = .next (s.tick.respond (Config.freeByte s.free))) := by
  rw [exec_ofRead, readRule_name]
  refine ⟨fun v hv => ?_, fun hu => ?_⟩
  · exact transRead_of_value (t := s) h (by rw [readStored, hv, State.valueOf_known]) rfl
  · exact transRead_of_value (t := s.tick) h (by rw [readStored, hu, State.valueOf_unknown]) rfl

/-- Settles O7: a configuration register is a storage register. -/
theorem configurationRegisterReads : Obligations.ConfigurationRegisterReads := by
  unfold Obligations.ConfigurationRegisterReads
  intro r d s _ hbus
  obtain ⟨hknown, hunknown⟩ := exec_read_stored hbus r d
  exact ⟨hknown, hunknown, tableWordsDecodeToTheirRows false r.name d⟩

/-- Settles O8: so are the pointer, the start and count of a reception, and the length. -/
theorem pointerCountAndLengthReads : Obligations.PointerCountAndLengthReads := by
  unfold Obligations.PointerCountAndLengthReads
  intro r d s _ hbus
  obtain ⟨hknown, hunknown⟩ := exec_read_stored hbus r d
  exact ⟨hknown, hunknown, tableWordsDecodeToTheirRows false r.name d⟩

/-- Settles O14: the guard of R78 looks at the mode, and lets the write store into its own register. -/
theorem configurationWritesAndTheirGuard : Obligations.ConfigurationWritesAndTheirGuard := by
  unfold Obligations.ConfigurationWritesAndTheirGuard
  intro r v s hconfig hbus
  rw [exec_ofWrite, writeRule_name hconfig]
  refine ⟨fun hm => ⟨?_, State.reg_setReg_self s r v, fun q hq => State.reg_setReg_other s v hq⟩, fun hm => ?_,
    tableWordsDecodeToTheirRows true r.name v⟩
  · have hinactive : modeActive s.dev.mode = false := by rcases hm with e | e <;> rw [e] <;> rfl
    exact transWrite_of_done hbus.1 hbus.2 (by rw [writeConfig, hinactive]; rfl)
  · have hactive : modeActive s.dev.mode = true := by rcases hm with e | e <;> rw [e] <;> rfl
    exact transWrite_of_fault hbus (by rw [writeConfig, hactive]; rfl)

/-- Settles O15: the pointer write has no check, the length write looks at the mode. -/
theorem pointerAndLengthWrites : Obligations.PointerAndLengthWrites := by
  unfold Obligations.PointerAndLengthWrites
  intro v s hbus
  refine ⟨transWrite_of_done hbus.1 hbus.2 rfl, fun hm => ?_, fun hm => ?_, tableWordsDecodeToTheirRows true .fifoAddrPtr v,
    tableWordsDecodeToTheirRows true .payloadLength v⟩
  · exact transWrite_of_done hbus.1 hbus.2 (if_neg hm)
  · exact transWrite_of_fault hbus (if_pos hm)

/-- Settles O17: the rule of the three registers is the refusal. -/
theorem readOnlyWritesAreRefused : Obligations.ReadOnlyWritesAreRefused := by
  unfold Obligations.ReadOnlyWritesAreRefused
  intro v s hbus
  have hrefused : transWrite writeReadOnly v s = .next (s.refusedFor .writeToReadOnly) := transWrite_of_refuse hbus rfl
  exact ⟨hrefused, hrefused, hrefused, tableWordsDecodeToTheirRows true .fifoRxCurrentAddr v,
    tableWordsDecodeToTheirRows true .rxNbBytes v, tableWordsDecodeToTheirRows true .version v⟩

/-! ## The FIFO port -/

theorem fifoAccess_sleep {s : State} (hm : s.dev.mode = .sleep) : fifoAccess s = .fault .fifoInSleep := by
  simp only [fifoAccess, hm]

theorem fifoAccess_transmit {s : State} (hm : s.dev.mode = .transmit) : fifoAccess s = .fault .fifoDuringTransmit := by
  simp only [fifoAccess, hm]

theorem fifoAccess_pointerUnknown {s : State} (hm : s.dev.mode = .standby ∨ s.dev.mode = .receiveContinuous)
    (hp : s.reg .fifoAddrPtr = .unknown) : fifoAccess s = .fault .pointerUnknown := by
  rcases hm with hm | hm <;> simp only [fifoAccess, hm, hp]

theorem readFifo_of_access {s : State} {p : Byte} (h : fifoAccess s = .done p) :
    readFifo s = .done ((s.valueOf (s.buf p)).1, (s.valueOf (s.buf p)).2.setReg .fifoAddrPtr (p + 1)) := by
  simp only [readFifo, h]

theorem readFifo_of_fault {s : State} {f : Fault} (h : fifoAccess s = .fault f) : readFifo s = .fault f := by
  simp only [readFifo, h]

theorem writeFifo_of_access {s : State} {p : Byte} (h : fifoAccess s = .done p) (v : Byte) :
    writeFifo v s = .done ((s.setBuf p v).setReg .fifoAddrPtr (p + 1)) := by
  simp only [writeFifo, h]

theorem writeFifo_of_fault {s : State} {f : Fault} (h : fifoAccess s = .fault f) (v : Byte) : writeFifo v s = .fault f := by
  simp only [writeFifo, h]

/-- Settles O9: the checks of the access, then the byte at the pointer. -/
theorem fifoReadStepsThePointer : Obligations.FifoReadStepsThePointer := by
  unfold Obligations.FifoReadStepsThePointer
  intro d s hbus
  have hfault : ∀ f, fifoAccess s = .fault f → exec (.rdFifo d) s = .next (s.faulted f) := fun f hf =>
    transRead_of_fault hbus.1 (readFifo_of_fault hf)
  refine ⟨fun p hm hp => ?_, fun hm => hfault _ (fifoAccess_sleep hm), fun hm => hfault _ (fifoAccess_transmit hm),
    fun hm hp => hfault _ (fifoAccess_pointerUnknown hm hp), ?_⟩
  · have hread := readFifo_of_access ((fifoAccess_done_iff s p).mpr ⟨hm, hp⟩)
    refine ⟨fun v hv => ?_, fun hu => ?_⟩
    · rw [hv] at hread
      exact transRead_of_value hbus hread rfl
    · rw [hu] at hread
      exact transRead_of_value hbus hread rfl
  · have hword : decodeTableWord 16 (0 + d.toNat) = some (.rdFifo d) := tableWordsDecodeToTheirRows false .fifo d
    rwa [Nat.zero_add] at hword

/-- Settles O13: the checks of the access, then the store at the pointer. -/
theorem fifoWriteStoresAndStepsThePointer : Obligations.FifoWriteStoresAndStepsThePointer := by
  unfold Obligations.FifoWriteStoresAndStepsThePointer
  intro v s hbus
  have hfault : ∀ f, fifoAccess s = .fault f → exec (.wrFifo v) s = .next (s.faulted f) := fun f hf =>
    transWrite_of_fault hbus (writeFifo_of_fault hf v)
  refine ⟨fun p hm hp => ⟨?_, State.buf_setBuf_self s p v, fun q hq => State.buf_setBuf_other s v hq⟩,
    fun hm => hfault _ (fifoAccess_sleep hm), fun hm => hfault _ (fifoAccess_transmit hm),
    fun hm hp => hfault _ (fifoAccess_pointerUnknown hm hp), tableWordsDecodeToTheirRows true .fifo v⟩
  exact transWrite_of_done hbus.1 hbus.2 (writeFifo_of_access ((fifoAccess_done_iff s p).mpr ⟨hm, hp⟩) v)

/-! ## OP_MODE, IRQ_FLAGS and VERSION -/

theorem readOpMode_of_nibble {s t : State} {mid : BitVec 4} (h : s.nibbleOf s.dev.mid = (mid, t)) :
    readOpMode s = .done (BitVec.ofBool s.dev.lr ++ mid ++ s.cfg.codes.code s.dev.mode, t) := by
  simp only [readOpMode, h, opModeRead]

/-- Settles O10: the three fields, of which only the middle bits can be a draw. -/
theorem opModeReadGivesTheCurrentMode : Obligations.OpModeReadGivesTheCurrentMode := by
  unfold Obligations.OpModeReadGivesTheCurrentMode
  intro d s hbus
  refine ⟨fun mid hmid => ?_, fun hmid => ⟨(Config.freeByte s.free).setWidth 4, ?_⟩,
    tableWordsDecodeToTheirRows false .opMode d⟩
  · exact transRead_of_value (t := s) hbus (readOpMode_of_nibble (by rw [hmid, State.nibbleOf_known])) rfl
  · exact transRead_of_value (t := s.tick) hbus (readOpMode_of_nibble (by rw [hmid, State.nibbleOf_unknown])) rfl

/-- Settles O11: the byte read is `irqByte` over a drawn byte, which holds each flag at its bit. -/
theorem irqFlagsReadShowsTheFlags : Obligations.IrqFlagsReadShowsTheFlags := by
  unfold Obligations.IrqFlagsReadShowsTheFlags
  intro d s hbus hbits
  exact ⟨⟨irqByte s.cfg (Config.freeByte s.free) s.dev, transRead_of_value (rule := readIrqFlags) hbus rfl rfl,
    irqByte_txDone _ s.dev hbits, irqByte_rxDone s.cfg _ s.dev, fun i ht hr => irqByte_other _ s.dev ht hr⟩,
    tableWordsDecodeToTheirRows false .irqFlags d⟩

/-- Settles O12: the rule of VERSION is the constant. -/
theorem versionReadGivesTheIdentity : Obligations.VersionReadGivesTheIdentity := by
  unfold Obligations.VersionReadGivesTheIdentity
  intro d s hbus
  exact ⟨transRead_of_value (rule := readVersion) hbus rfl rfl, tableWordsDecodeToTheirRows false .version d⟩

/-- Settles O16: each flag is cleared by a 1 at its own bit. -/
theorem irqFlagsWriteOneClears : Obligations.IrqFlagsWriteOneClears := by
  unfold Obligations.IrqFlagsWriteOneClears
  intro v s hbus
  refine ⟨?_, tableWordsDecodeToTheirRows true .irqFlags v⟩
  simp only [← clearedBy_eq]
  exact transWrite_of_done hbus.1 hbus.2 rfl

end Sys2Proof.Machine
end

section
/-! O22, O23, O24: an OP_MODE write that passes its checks. What it does is `modeEffect` on the three fields, and the two
modes alone say whether that is nothing, the start of a transmission or its abort. -/

namespace Sys2Proof.Machine

/-! ## The start and the abort, by the frame -/

theorem txStart_lengthUnknown {s : State} (hn : s.reg .payloadLength = .unknown) : txStart s = .fault .lengthUnknown := by
  simp only [txStart, hn]

theorem txStart_baseUnknown {s : State} {n : Byte} (hn : s.reg .payloadLength = .known n)
    (hb : s.reg .fifoTxBaseAddr = .unknown) : txStart s = .fault .txBaseUnknown := by
  simp only [txStart, hn, hb]

theorem txStart_known {s : State} {n b : Byte} (hn : s.reg .payloadLength = .known n)
    (hb : s.reg .fifoTxBaseAddr = .known b) :
    txStart s = .done ((s.setFree (captureFrame n.toNat b s).2.free).setTxJob (some (captureFrame n.toNat b s).1)) := by
  obtain ⟨-, hdraws, -⟩ := captureFrame_frame n.toNat b s
  rw [← hdraws]
  simp only [txStart, hn, hb]

/-- An abort drops the pending frame, if any, and has then emitted nothing or a first part of it (R124). -/
theorem txAbort_emits (s : State) : ∃ a n, txAbort s = ((s.setTxJob none).setAir a).setFree n ∧
    (s.dev.txJob = none → a = s.air) ∧
    ∀ f, s.dev.txJob = some f → a = s.air ∨ ∃ j, j ≤ f.length ∧ a = s.air ++ [.part (f.take j)] := by
  rcases txAbort_cases s with ⟨hj, e⟩ | ⟨f, em, hj, hem, e⟩
  · obtain ⟨a, n, he⟩ := txAbort_eq s
    have ha : a = s.air := (congrArg State.air (he.symm.trans e) :)
    exact ⟨a, n, he, fun _ => ha, fun f hf => by simp [hj] at hf⟩
  · refine ⟨s.air ++ em, s.free + 1, e, fun hn => by simp [hj] at hn, fun g hg => ?_⟩
    cases hj.symm.trans hg
    rcases hem with rfl | ⟨j, rfl⟩
    · exact .inl (List.append_nil _)
    · exact .inr ⟨min j f.length, Nat.min_le_right .., by rw [← List.take_eq_take_min]⟩

/-! ## The write, by the two modes -/

/-- The cells that neither enter nor leave Transmit (R121). -/
theorem modeAllowed_of_mem {old new : Mode}
    (h : (old, new) ∈ [(Mode.sleep, Mode.standby), (.standby, .standby), (.receiveContinuous, .standby),
      (.standby, .receiveContinuous), (.receiveContinuous, .receiveContinuous)]) :
    modeAllowed old new = true ∧ old ≠ .transmit ∧ new ≠ .transmit := by
  revert h
  cases old <;> cases new <;> decide

theorem modeEffect_other {old new : Mode} (ho : old ≠ .transmit) (hn : new ≠ .transmit) (s : State) :
    modeEffect old new s = .done s := by
  simp [modeEffect, ho, hn]

theorem modeEffect_enter {old : Mode} (ho : old ≠ .transmit) (s : State) : modeEffect old .transmit s = txStart s := by
  simp [modeEffect, ho]

theorem modeEffect_leave {new : Mode} (hn : new ≠ .transmit) (s : State) :
    modeEffect .transmit new s = .done (txAbort s) := by
  simp [modeEffect, hn]

section
variable {v : Byte} {s : State} {m : Mode} (hwf : s.cfg.codes.wf = true) (hcode : s.cfg.codes.code m = modeField v)
include hwf hcode

theorem modeOfCode_modeField : modeOfCode s.cfg.codes (modeField v) = some m := by
  rw [← hcode, modeOfCode_code hwf]

variable (hkeep : lrField v = s.dev.lr ∨ s.dev.mode = .sleep) (hlong : modeActive m = true → lrField v = true)
  (hcell : modeAllowed s.dev.mode m = true)
include hkeep hlong hcell

/-- A write that passes the checks sets the three fields and then starts or ends what the two modes ask (R120). -/
theorem modeWrite_passes :
    modeWrite v s = modeEffect s.dev.mode m (s.setMode (lrField v) (midField v) m) := by
  have hkept : ¬(lrField v ≠ s.dev.lr ∧ s.dev.mode ≠ .sleep) := not_and_or.mpr (hkeep.imp not_not.mpr not_not.mpr)
  have hmodelled : ¬(modeActive m = true ∧ lrField v = false) := fun ⟨ha, hl⟩ => by simp [hlong ha] at hl
  have hon : ¬ modeAllowed s.dev.mode m = false := by simp [hcell]
  simp only [modeWrite, modeOfCode_modeField hwf hcode, if_neg hkept, if_neg hmodelled, if_neg hon]

end

/-- On a reliable bus an OP_MODE write that neither enters nor leaves Transmit sets the three fields (R120). -/
theorem exec_wrOpMode_fields {v : Byte} {s : State} {m : Mode} (hbus : s.busReady) (hwf : s.cfg.codes.wf = true)
    (hcode : s.cfg.codes.code m = modeField v) (hkeep : lrField v = s.dev.lr ∨ s.dev.mode = .sleep)
    (hlong : modeActive m = true → lrField v = true) (hcell : modeAllowed s.dev.mode m = true)
    (hold : s.dev.mode ≠ .transmit) (hnew : m ≠ .transmit) :
    exec (.wrOpMode v) s = .next (s.setMode (lrField v) (midField v) m).respondDrawn :=
  transWrite_of_done hbus.1 hbus.2
    ((modeWrite_passes hwf hcode hkeep hlong hcell).trans (modeEffect_other hold hnew _))

/-- Settles O22: the five cells are allowed and neither enter nor leave Transmit. -/
theorem opModeWriteSetsTheFields : Obligations.OpModeWriteSetsTheFields := by
  unfold Obligations.OpModeWriteSetsTheFields
  intro v s m hbus hwf hcode hkeep hrx hcell
  obtain ⟨hallowed, hold, hnew⟩ := modeAllowed_of_mem hcell
  refine exec_wrOpMode_fields hbus hwf hcode hkeep (fun hactive => hrx ?_) hallowed hold hnew
  cases m with
  | receiveContinuous => rfl
  | transmit => exact absurd rfl hnew
  | sleep | standby => cases hactive

/-- Settles O23: the write is `txStart` on the fields it has set, which looks at the length, then the base, and captures. -/
theorem enteringTransmitTakesTheFrame : Obligations.EnteringTransmitTakesTheFrame := by
  unfold Obligations.EnteringTransmitTakesTheFrame
  intro v s hbus hwf hcode hmode hlr hlong
  have hwrite : modeWrite v s = txStart (s.setMode (lrField v) (midField v) .transmit) := by
    rw [modeWrite_passes hwf hcode (.inl (hlong.trans hlr.symm)) (fun _ => hlong) (by rw [hmode]; rfl), hmode,
      modeEffect_enter (by decide)]
  have hlong' : lrField v = true := hlong
  rw [hlong'] at hwrite
  refine ⟨fun n b hn hb => ?_, fun hn => ?_, fun n hn hb => ?_⟩
  · obtain ⟨hlen, -, -⟩ := captureFrame_frame n.toNat b (s.setMode true (midField v) .transmit)
    obtain ⟨hknown, hunknown⟩ := captureFrame_bytes n.toNat b (s.setMode true (midField v) .transmit)
    exact ⟨_, _, transWrite_of_done hbus.1 hbus.2 (hwrite.trans (txStart_known hn hb)), rfl, rfl, rfl, rfl, rfl, hlen,
      hknown, hunknown⟩
  · exact transWrite_of_fault hbus (hwrite.trans (txStart_lengthUnknown hn))
  · exact transWrite_of_fault hbus (hwrite.trans (txStart_baseUnknown hn hb))

/-- Settles O24: the write is `txAbort` on the fields it has set. -/
theorem leavingTransmitAborts : Obligations.LeavingTransmitAborts := by
  unfold Obligations.LeavingTransmitAborts
  intro v s hbus hwf hcode hmode hlr
  have hkeep : lrField v = s.dev.lr := hlr
  have hwrite : modeWrite v s = .done (txAbort (s.setMode s.dev.lr (midField v) .standby)) := by
    rw [modeWrite_passes hwf hcode (.inl hkeep) nofun (by rw [hmode]; rfl), hmode, modeEffect_leave (by decide), hkeep]
  obtain ⟨a, n, habort, hnone, hsome⟩ := txAbort_emits (s.setMode s.dev.lr (midField v) .standby)
  rw [habort] at hwrite
  exact ⟨_, transWrite_of_done hbus.1 hbus.2 hwrite, rfl, rfl, rfl, rfl, hnone, hsome⟩

end Sys2Proof.Machine
end

section
/-! O44, O45: the device events. An event is its own step; where it is enabled its effect is written out, elsewhere it does
nothing. -/

namespace Sys2Proof.Machine

/-! ## TxComplete -/

theorem txComplete_of_pending {s : State} {f : List Byte} (hm : s.dev.mode = .transmit) (hj : s.dev.txJob = some f) :
    txComplete s =
      (s.setAir (s.air ++ [.full f])).setDev { s.dev with txJob := none, txDone := true, mode := .standby } := by
  simp only [txComplete, hm, hj]

theorem txComplete_of_disabled {s : State} (h : s.dev.mode ≠ .transmit ∨ s.dev.txJob = none) : txComplete s = s := by
  rcases txComplete_cases s with e | ⟨f, hm, hj, -⟩
  · exact e
  · simp [hm, hj] at h

/-- Settles O44: the step is the event and the draw of the next turn. -/
theorem txCompleteEvent : Obligations.TxCompleteEvent := by
  unfold Obligations.TxCompleteEvent
  intro s hf hr hb hturn
  have hstep : step s = .next (txComplete s).drawTurn := by
    rw [step_running hf hr hb, hturn, agentMove, withNextTurn]
  rw [hstep]
  exact ⟨fun f hm hj => by rw [txComplete_of_pending hm hj], fun hoff => by rw [txComplete_of_disabled hoff]⟩

/-! ## RxDeliver -/

/-- Choosing the start only draws (R125). -/
theorem placeOf_draws (s : State) : (placeOf s).2 = s.setFree (placeOf s).2.free := by
  unfold placeOf
  split
  · rfl
  · exact (State.valueOf_frame s _).1

/-- Under placement `base` a known receive base is the start (R125, D9). -/
theorem placeOf_base {s : State} {b : Byte} (hp : s.cfg.rxPlacement = .base) (hb : s.reg .fifoRxBaseAddr = .known b) :
    (placeOf s).1 = b := by
  simp only [placeOf, hp, hb, State.valueOf_known]

theorem rxEnabled_iff (s : State) : rxEnabled s = true ↔ s.dev.mode = .receiveContinuous ∧ s.dev.lr = true := by
  simp [rxEnabled]

theorem rxDeliver_of_enabled {s : State} (h : rxEnabled s = true) :
    rxDeliver s = deliver (offeredFrame s) (placeOf s.tick).1 (s.setFree (placeOf s.tick).2.free) := by
  have hdraws : (placeOf s.tick).2 = s.setFree (placeOf s.tick).2.free := placeOf_draws s.tick
  rw [← hdraws]
  simp only [rxDeliver, if_pos h]

theorem rxDeliver_of_disabled {s : State} (h : rxEnabled s ≠ true) : rxDeliver s = s := if_neg h

/-- The medium offers at most 255 bytes (R14, R125). -/
theorem offeredFrame_length (s : State) : (offeredFrame s).length ≤ 255 := List.length_take_le ..

/-- Settles O45: the step is the event and the draw of the next turn; the frame is read back from its start on, and the other
bytes of the buffer stay. -/
theorem rxDeliverEvent : Obligations.RxDeliverEvent := by
  unfold Obligations.RxDeliverEvent
  intro s hf hr hb hturn
  have hstep : step s = .next (rxDeliver s).drawTurn := by
    rw [step_running hf hr hb, hturn, agentMove, withNextTurn]
  refine ⟨fun hm hlr => ?_, fun hoff => ?_⟩
  · have hlen := offeredFrame_length s
    rw [rxDeliver_of_enabled ((rxEnabled_iff s).mpr ⟨hm, hlr⟩)] at hstep
    exact ⟨_, offeredFrame s, (placeOf s.tick).1, hstep, hlen,
      fun i x hx => Memory.read_writeBytes_self s.dev.fifo _ _ (by omega) hx,
      fun p hp => Memory.read_writeBytes_other s.dev.fifo _ _ hp, rfl,
      fun hbase b hreg => placeOf_base (s := s.tick) hbase hreg, rfl, rfl, rfl, rfl, rfl, rfl, rfl, hf, hr⟩
  · have hdisabled : rxEnabled s ≠ true := fun he => by
      obtain ⟨hm, hlr⟩ := (rxEnabled_iff s).mp he
      simp [hm, hlr] at hoff
    rw [hstep, rxDeliver_of_disabled hdisabled]

end Sys2Proof.Machine
end

section
/-! O28, O29, O30: reset, init and setMode, turn by turn. A turn of a running operation is one step of it; an access on a
reliable bus is its register's rule, after which the operation goes on. The writes of `init` after the first are one list. -/

namespace Sys2Proof.Machine

/-! ## Turns of a running operation -/

/-- A request that the idle controller takes starts (R31, R151). -/
theorem exec_request_starts {req : Request} {s : State} (ho : s.ctl.op = .idle) (ht : takenIn req s.ctl.life = true)
    (ha : badArgument req s.cfg = none) : exec req.toInstr s = .next (s.start req) := by
  simp only [exec_toInstr, offer, ho, ht, ha, if_true]

/-- With no codec call pending, a turn is one step of the running operation (R152). -/
theorem runController_step {k : Nat} {req : Request} {pc sub : Nat} {loc : Locals} {s t : State} (hc : s.calls = [])
    (ho : s.ctl.op = .running req pc sub loc) (h : stepOp req pc sub loc s = .next t) :
    runController (k + 1) s = runController k t := by
  refine runController_succ ?_
  simp only [controllerTurn, hc, ho, h]

/-- The five steps of `reset` put the device in its reset state (R117). -/
theorem runController_reset {sub : Nat} {loc : Locals} {s : State} (hc : s.calls = [])
    (ho : s.ctl.op = .running .reset 1 sub loc) :
    runController 5 s = .next (((s.setDev Dev.reset).setLife .uninit).finish .ok) :=
  calc runController 5 s
    _ = runController 4 ((s.setLine .asserted).goto .reset 2 0 loc) := runController_step hc ho rfl
    _ = runController 3 ((s.setLine .asserted).goto .reset 3 0 loc) := runController_step hc rfl rfl
    _ = runController 2 ((s.setLine .released).goto .reset 4 0 loc) := runController_step hc rfl rfl
    _ = runController 1 ((s.setLine .released).goto .reset 5 0 loc) := runController_step hc rfl rfl
    _ = .next (((s.setDev Dev.reset).setLife .uninit).finish .ok) := runController_step hc rfl rfl

/-- Step 1 of `init` is these five steps (R118). -/
theorem runController_initPulse {loc : Locals} {s : State} (hc : s.calls = [])
    (ho : s.ctl.op = .running .init 1 1 loc) :
    runController 5 s = .next (((s.setDev Dev.reset).setLife .uninit).goto .init 2 0 loc) :=
  calc runController 5 s
    _ = runController 4 ((s.setLine .asserted).goto .init 1 2 loc) := runController_step hc ho rfl
    _ = runController 3 ((s.setLine .asserted).goto .init 1 3 loc) := runController_step hc rfl rfl
    _ = runController 2 ((s.setLine .released).goto .init 1 4 loc) := runController_step hc rfl rfl
    _ = runController 1 ((s.setLine .released).goto .init 1 5 loc) := runController_step hc rfl rfl
    _ = .next (((s.setDev Dev.reset).setLife .uninit).goto .init 2 0 loc) := runController_step hc rfl rfl

/-- Settles O28: an idle controller takes the request in Uninit and Ready, and the five steps are its run. -/
theorem resetCompletes : Obligations.ResetCompletes := by
  unfold Obligations.ResetCompletes
  intro s ho hc hlife
  have htaken : takenIn .reset s.ctl.life = true := by simpa [takenIn] using hlife
  exact ⟨s.start .reset, exec_request_starts (req := .reset) ho htaken rfl, runController_reset hc rfl⟩

/-! ## Accesses of a running operation -/

theorem Params.regMap_wf {p : Params} (h : p.wf = true) : p.regMap.wf = true := by
  simp only [Params.wf, Bool.and_eq_true] at h
  obtain ⟨⟨⟨⟨⟨hmap, -⟩, -⟩, -⟩, -⟩, -⟩ := h
  exact hmap

theorem Params.codes_wf {p : Params} (h : p.wf = true) : p.codes.wf = true := by
  simp only [Params.wf, Bool.and_eq_true] at h
  obtain ⟨⟨⟨⟨⟨-, hcodes⟩, -⟩, -⟩, -⟩, -⟩ := h
  exact hcodes

theorem andThen_of_running {t : State} (h : t.stopped = false) (k : State → State) :
    andThen (.next t) k = .next (k t) := by
  rw [andThen_next, h]
  rfl

section
variable {s t : State} {r : RegName} {v : Byte} (hmap : s.cfg.regMap.wf = true) (hbus : s.busReady)
  (hrun : s.stopped = false) (k : State → State)
include hmap hbus hrun

/-- After a read that goes through, the operation goes on with the value of the register's rule (R74). -/
theorem andThen_busReadReg (hr : readRule r s = .done (v, t)) (hcfg : t.cfg = s.cfg) :
    andThen (busReadReg r s) k = .next (k (t.respond v)) := by
  have hsame := readRule_sameControl hr
  have hstopped : (t.respond v).stopped = false := by
    rw [← hrun, State.stopped, State.respond_fault, State.respond_refusal, hsame.fault, hsame.refusal, State.stopped]
  rw [(controllerAccessesRunTheInstruction r v s hmap).1, exec_ofRead, transRead_of_value hbus hr hcfg,
    andThen_of_running hstopped]

/-- After a write that goes through, the operation goes on with what the register's rule has done (R75). -/
theorem andThen_busWriteReg (hw : writeRule r v s = .done t) :
    andThen (busWriteReg r v s) k = .next (k t.respondDrawn) := by
  have hsame := writeRule_sameControl hw
  have hstopped : t.respondDrawn.stopped = false := by
    rw [← hrun, State.stopped, State.respondDrawn_fault, State.respondDrawn_refusal, hsame.fault, hsame.refusal,
      State.stopped]
  rw [(controllerAccessesRunTheInstruction r v s hmap).2, exec_ofWrite, transWrite_of_done hbus.1 hbus.2 hw,
    andThen_of_running hstopped]

end

/-! ## init -/

/-- `init`, begun from `s₀`, stands at step `pc` (beyond its step 1) before the device `d`, which answers; no codec call is
pending, nothing has been emitted and nothing has stopped the node. -/
structure InitAt (s₀ : State) (pc : Nat) (loc : Locals) (d : Dev) (s : State) : Prop where
  cfg : s.cfg = s₀.cfg
  op : s.ctl.op = .running .init pc 0 loc
  dev : s.dev = d
  air : s.air = s₀.air
  calls : s.calls = []
  fault : s.fault = none
  refusal : s.refusal = none
  line : d.resetLine = .released

section
variable {s₀ s : State} {pc : Nat} {loc : Locals} {d : Dev} (h : InitAt s₀ pc loc d s)
include h

theorem InitAt.running : s.stopped = false := by
  rw [State.stopped, h.fault, h.refusal]
  rfl

theorem InitAt.runController_step {k : Nat} {t : State} (hs : stepInit pc 0 loc s = .next t) :
    runController (k + 1) s = runController k t :=
  Machine.runController_step h.calls h.op hs

variable (hwf : s₀.cfg.wf = true) (hrel : s₀.cfg.busReliable = true)
include hrel

theorem InitAt.busReady : s.busReady := ⟨h.dev ▸ h.line, h.cfg ▸ hrel⟩

include hwf

/-- Step 2: the identity is read (R97, R118). -/
theorem InitAt.readIdentity (hpc : pc = 2) : ∃ t, stepInit pc 0 loc s = .next t ∧
    InitAt s₀ 3 { loc with id := s₀.cfg.devId } d t := by
  subst hpc
  have hread := andThen_busReadReg (h.cfg ▸ Params.regMap_wf hwf) (h.busReady hrel) h.running
    (fun t => t.goto .init 3 0 { loc with id := t.bus.resp1 }) (r := .version) rfl rfl
  exact ⟨_, hread, h.cfg, by rw [← h.cfg]; rfl, h.dev, h.air, h.calls, h.fault, h.refusal, h.line⟩

/-- One of the writes of `init` that goes through (R118). -/
theorem InitAt.write {r : RegName} {v : Byte} {t : State} (hpc : initWrite s₀.cfg pc = some (r, v))
    (hw : writeRule r v s = .done t) :
    stepInit pc 0 loc s = .next (t.respondDrawn.goto .init (pc + 1) 0 loc) := by
  have hstep : stepInit pc 0 loc s = andThen (busWriteReg r v s) (fun t => t.goto .init (pc + 1) 0 loc) := by
    rw [← h.cfg] at hpc
    unfold initWrite at hpc
    split at hpc <;> cases hpc <;> rfl
  rw [hstep, andThen_busWriteReg (h.cfg ▸ Params.regMap_wf hwf) (h.busReady hrel) h.running _ hw]

/-- Step 4: the write that puts the device into long-range Standby (R118, R120). -/
theorem InitAt.writeOpMode (hpc : pc = 4) (hmode : d.mode = .sleep) : ∃ t, stepInit pc 0 loc s = .next t ∧
    InitAt s₀ 5 loc { d with lr := true, mid := .known 0#4, mode := .standby } t := by
  subst hpc
  obtain ⟨hcode, hmid, hlr⟩ := opModeByte_fields s.cfg.codes .standby
  have hmode' : s.dev.mode = .sleep := h.dev ▸ hmode
  have hw : modeWrite (opModeByte s.cfg.codes .standby) s = .done (s.setMode true 0#4 .standby) := by
    rw [modeWrite_passes (h.cfg ▸ Params.codes_wf hwf) hcode.symm (.inr hmode') nofun (by rw [hmode']; rfl), hmode', hmid,
      hlr, modeEffect_other (by decide) (by decide)]
  rw [h.cfg] at hw
  exact ⟨_, h.write hwf hrel rfl hw, h.cfg, rfl, by rw [← h.dev]; rfl, h.air, h.calls, h.fault, h.refusal, h.line⟩

/-- A configuration write in Standby stores its byte (R78, R118). -/
theorem InitAt.writeConfig {q : StoreReg} {v : Byte} (hpc : initWrite s₀.cfg pc = some (q.name, v))
    (hq : q.isConfig = true) (hmode : d.mode = .standby) : ∃ t, stepInit pc 0 loc s = .next t ∧
      InitAt s₀ (pc + 1) loc { d with regs := d.regs.set (.known v) q } t := by
  have hinactive : modeActive s.dev.mode = false := by rw [h.dev, hmode]; rfl
  have hw : writeRule q.name v s = .done (s.setReg q v) := by
    rw [writeRule_name hq, Machine.writeConfig, hinactive]
    rfl
  exact ⟨_, h.write hwf hrel hpc hw, h.cfg, rfl, by rw [← h.dev]; rfl, h.air, h.calls, h.fault, h.refusal, h.line⟩

end

/-- The registers after these bytes are stored one after another. -/
def Regs.setAll (g : Regs) (cs : List (StoreReg × Byte)) : Regs := cs.foldl (fun g c => g.set (.known c.2) c.1) g

/-- The configuration bytes of `init` in the order of its steps 5 to 15 (R118). -/
def initConfig (p : Params) : List (StoreReg × Byte) :=
  [(.frfMsb, frfMsbOf (frfWord p.freqHz)), (.frfMid, frfMidOf (frfWord p.freqHz)), (.frfLsb, frfLsbOf (frfWord p.freqHz)),
   (.paConfig, p.paConfigByte), (.modemConfig1, p.modemConfig1Byte), (.modemConfig2, p.modemConfig2Byte),
   (.modemConfig3, p.modemConfig3Byte), (.preambleMsb, preambleMsbOf Config.preambleLen),
   (.preambleLsb, preambleLsbOf Config.preambleLen), (.fifoTxBaseAddr, Config.txBase), (.fifoRxBaseAddr, Config.rxBase)]

/-- `cs` are the configuration writes of `init` from step `pc` on. -/
def ConfigWritesFrom (p : Params) : Nat → List (StoreReg × Byte) → Prop
  | _, [] => True
  | pc, (q, v) :: cs => initWrite p pc = some (q.name, v) ∧ q.isConfig = true ∧ ConfigWritesFrom p (pc + 1) cs

theorem configWritesFrom_initConfig (p : Params) : ConfigWritesFrom p 5 (initConfig p) := by
  simp [initConfig, ConfigWritesFrom, initWrite, StoreReg.name, StoreReg.isConfig]

/-- Configuration writes one after another, a turn each, store their bytes (R118). -/
theorem InitAt.runController_configWrites {s₀ s : State} {pc : Nat} {loc : Locals} {d : Dev}
    {cs : List (StoreReg × Byte)} (h : InitAt s₀ pc loc d s) (hwf : s₀.cfg.wf = true)
    (hrel : s₀.cfg.busReliable = true) (hcs : ConfigWritesFrom s₀.cfg pc cs) (hmode : d.mode = .standby) :
    ∃ t, runController cs.length s = .next t ∧
      InitAt s₀ (pc + cs.length) loc { d with regs := d.regs.setAll cs } t := by
  induction cs generalizing s pc d with
  | nil => exact ⟨s, rfl, h⟩
  | cons c cs ih =>
    obtain ⟨hpc, hq, hcs⟩ := hcs
    obtain ⟨t, ht, hat⟩ := h.writeConfig hwf hrel hpc hq hmode
    obtain ⟨u, hu, hau⟩ := ih hat hcs hmode
    refine ⟨u, (h.runController_step ht).trans hu, ?_⟩
    rw [List.length_cons, Nat.add_comm cs.length, ← Nat.add_assoc]
    exact hau

/-- Steps 1 and 2 of `init`: the pulse of reset, then the identity is read (R118, R97). -/
theorem runController_initIdentity {s : State} (hs : s.operable) : ∃ t, runController 6 (s.start .init) = .next t ∧
    InitAt s 3 { Locals.blank with id := s.cfg.devId } Dev.reset t := by
  obtain ⟨hf, hr, hc, -, hwf, -, hrel⟩ := hs
  have hat : InitAt s 2 Locals.blank Dev.reset
      ((((s.start .init).setDev Dev.reset).setLife .uninit).goto .init 2 0 Locals.blank) :=
    ⟨rfl, rfl, rfl, rfl, hc, hf, hr, rfl⟩
  obtain ⟨t, ht, hat3⟩ := hat.readIdentity hwf hrel rfl
  have hpulse : runController 5 (s.start .init) = _ := runController_initPulse hc rfl
  exact ⟨t, (runController_add (k := 1) hpulse).trans (hat.runController_step ht), hat3⟩

section
variable {s₀ s : State} {loc : Locals} (h : InitAt s₀ 3 loc Dev.reset s)
include h

/-- Step 3 with another identity than the expected one ends `init` (R118). -/
theorem InitAt.rejects (hid : loc.id ≠ s₀.cfg.chipId) :
    runController 1 s = .next ((s.setLife .halted).finish .chipNotDetected) :=
  h.runController_step (if_pos (h.cfg ▸ hid))

/-- Steps 3 to 16 with the expected identity: the mode write, the configuration writes, and the end (R118). -/
theorem InitAt.accepts (hid : loc.id = s₀.cfg.chipId) (hwf : s₀.cfg.wf = true) (hrel : s₀.cfg.busReliable = true) :
    ∃ t, runController 14 s = .next ((t.setLife .ready).finish .success) ∧ InitAt s₀ 16 loc
      { Dev.reset with
        lr := true, mid := .known 0#4, mode := .standby, regs := Regs.reset.setAll (initConfig s₀.cfg) } t := by
  have hstep : stepInit 3 0 loc s = .next (s.goto .init 4 0 loc) := if_neg (not_not.mpr (h.cfg ▸ hid))
  have hat4 : InitAt s₀ 4 loc Dev.reset (s.goto .init 4 0 loc) :=
    ⟨h.cfg, rfl, h.dev, h.air, h.calls, h.fault, h.refusal, rfl⟩
  obtain ⟨t5, ht5, hat5⟩ := hat4.writeOpMode hwf hrel rfl rfl
  obtain ⟨t16, ht16, hat16⟩ := hat5.runController_configWrites hwf hrel (configWritesFrom_initConfig s₀.cfg) rfl
  refine ⟨t16, ?_, hat16⟩
  calc runController 14 s
    _ = runController 13 (s.goto .init 4 0 loc) := h.runController_step hstep
    _ = runController 12 t5 := hat4.runController_step ht5
    _ = runController 1 t16 := runController_add (k := 1) ht16
    _ = .next ((t16.setLife .ready).finish .success) := hat16.runController_step rfl

end

/-- Settles O29: five turns of the pulse and one of the identity, then one turn to the rejection or fourteen to the end. -/
theorem initRuns : Obligations.InitRuns := by
  unfold Obligations.InitRuns
  intro s hs hlife hfrf
  have ⟨_, _, _, ho, hwf, _, hrel⟩ := hs
  have hstart : exec .init s = .next (s.start .init) :=
    exec_request_starts (req := .init) ho (by simp [takenIn, hlife]) (buildCheck_eq_none.mpr hfrf)
  obtain ⟨t, ht, hat⟩ := runController_initIdentity hs
  by_cases hid : s.cfg.devId = s.cfg.chipId
  · obtain ⟨u, hu, hat16⟩ := hat.accepts hid hwf hrel
    exact ⟨_, _, hstart, fun _ => ⟨(runController_add (k := 14) ht).trans hu, rfl, hat16.dev, hat16.air, hat16.fault,
      hat16.refusal⟩, fun hne => absurd hid hne⟩
  · exact ⟨_, _, hstart, fun he => absurd he hid, fun _ => ⟨(runController_add (k := 1) ht).trans (hat.rejects hid), rfl,
      hat.dev, hat.air, hat.fault, hat.refusal⟩⟩

/-! ## setMode -/

/-- The one turn of `setMode` is the OP_MODE write, and then the result (R119). -/
theorem runController_setMode {m : Mode} {sub : Nat} {loc : Locals} {s u : State} (hc : s.calls = [])
    (ho : s.ctl.op = .running (.setMode m) 1 sub loc) (hmap : s.cfg.regMap.wf = true)
    (hu : exec (.wrOpMode (opModeByte s.cfg.codes m)) s = .next u) :
    runController 1 s = .next (if u.stopped then u else u.finish .ok) := by
  have hwrite : busWriteReg .opMode (opModeByte s.cfg.codes m) s = .next u :=
    (controllerAccessesRunTheInstruction .opMode _ s hmap).2.trans hu
  have hstep : stepOp (.setMode m) 1 sub loc s = .next (if u.stopped then u else u.finish .ok) := by
    rw [stepOp, stepSetMode, hwrite, andThen_next]
  exact runController_step hc ho hstep

/-- Settles O30: the write to Standby or ReceiveContinuous sets the three fields, and that to Sleep is off the diagram. -/
theorem setModeIsOneWrite : Obligations.SetModeIsOneWrite := by
  unfold Obligations.SetModeIsOneWrite
  rintro s m ⟨hf, hr, hc, ho, hwf, hbus⟩ hlife hlong
  obtain ⟨hcode, hmid, hlr⟩ := opModeByte_fields s.cfg.codes m
  have hturn : ∀ u, exec (.wrOpMode (opModeByte s.cfg.codes m)) (s.start (.setMode m)) = .next u →
      runController 1 (s.start (.setMode m)) = .next (if u.stopped then u else u.finish .ok) := fun u hu =>
    runController_setMode (s := s.start (.setMode m)) hc rfl (Params.regMap_wf hwf) hu
  refine ⟨s.start (.setMode m), exec_request_starts (req := .setMode m) ho (by simp [takenIn, hlife]) rfl,
    fun u hu hrun => by simp [hturn u hu, hrun], fun hm hmode => ?_, ?_⟩
  · have hallowed : modeAllowed s.dev.mode m = true ∧ s.dev.mode ≠ .transmit ∧ m ≠ .transmit := by
      rcases hm with rfl | rfl <;> rcases hmode with e | e <;> rw [e] <;> decide
    obtain ⟨hcell, hold, hnew⟩ := hallowed
    have hwrite := exec_wrOpMode_fields (s := s.start (.setMode m)) hbus (Params.codes_wf hwf) hcode.symm
      (.inl (hlr.trans hlong.symm)) (fun _ => hlr) hcell hold hnew
    refine ⟨_, (hturn _ hwrite).trans (congrArg _ (if_neg (by simp [State.stopped, hf, hr]))), ?_, ?_⟩
    · simp [hlr, hmid, hlong]
    · simp [ho]
  · rintro rfl
    have hcell : modeAllowed s.dev.mode .sleep = false := by cases s.dev.mode <;> rfl
    exact hturn _ (transWrite_of_fault (s := s.start (.setMode .sleep)) hbus (modeWrite_offDiagram
      (modeOfCode_modeField (Params.codes_wf hwf) hcode.symm) (.inl (hlr.trans hlong.symm)) (.inl rfl) hcell))

end Sys2Proof.Machine
end

section
/-! O53: the configuration registers under a running framer. A step reads, or writes a register that is no configuration
register, or makes no access; what the transaction leaves alone is the frame of O49 and O50. -/

namespace Sys2Proof.Machine

/-- The configuration registers of `t` are those of `s`. -/
def State.SameConfig (s t : State) : Prop := ∀ q : StoreReg, q.isConfig = true → t.reg q = s.reg q

theorem State.SameConfig.of_dev {s t : State} (h : t.dev = s.dev) : s.SameConfig t := fun q _ => by
  rw [State.reg, State.reg, h]

/-- The registers that `setMode`, `send` and `tryReceive` write (R119, R128, R129). -/
def framerWrites : List RegName := [.fifo, .opMode, .fifoAddrPtr, .irqFlags, .payloadLength]

theorem name_ne_of_mem_framerWrites {r : RegName} (hr : r ∈ framerWrites) {q : StoreReg} (hq : q.isConfig = true) :
    q.name ≠ r := by
  rintro rfl
  revert hr hq
  cases q <;> decide

section
variable {s t : State} {r : RegName} {k : State → State} (hmap : s.cfg.regMap.wf = true)
include hmap

/-- A step of an operation that reads a register leaves the configuration alone. -/
theorem readStep_sameConfig (h : andThen (busReadReg r s) k = .next t)
    (hk : ∀ u, (k u).dev = u.dev := by exact fun _ => rfl) : s.SameConfig t := by
  obtain ⟨u, hu, e⟩ := andThen_dev hk h
  rw [(controllerAccessesRunTheInstruction r 0#8 s hmap).1] at hu
  obtain ⟨-, -, -, -, -, -, -, -, hreg, -⟩ := readTransactionsFrame r _ s u hu
  intro q hq
  have hptr : ¬(r = .fifo ∧ q = .fifoAddrPtr) := by
    rintro ⟨-, rfl⟩
    cases hq
  rw [State.reg, e]
  exact hreg q hptr

/-- So does one that writes a register the framer may write. -/
theorem writeStep_sameConfig {v : Byte} (h : andThen (busWriteReg r v s) k = .next t)
    (hr : r ∈ framerWrites := by decide) (hk : ∀ u, (k u).dev = u.dev := by exact fun _ => rfl) : s.SameConfig t := by
  obtain ⟨u, hu, e⟩ := andThen_dev hk h
  rw [(controllerAccessesRunTheInstruction r v s hmap).2] at hu
  obtain ⟨hreg, -⟩ := writeTransactionsFrame r v s u hu
  intro q hq
  have hptr : ¬(r = .fifo ∧ q = .fifoAddrPtr) := by
    rintro ⟨-, rfl⟩
    cases hq
  rw [State.reg, e]
  exact hreg q (name_ne_of_mem_framerWrites hr hq) hptr

theorem stepSetMode_sameConfig {m : Mode} {pc : Nat} (h : stepSetMode m pc s = .next t) : s.SameConfig t := by
  unfold stepSetMode at h
  split at h
  · exact writeStep_sameConfig hmap h
  · cases h

theorem stepSend_sameConfig {bytes : List Byte} {pc sub : Nat} {loc : Locals}
    (h : stepSend bytes pc sub loc s = .next t) : s.SameConfig t := by
  unfold stepSend at h
  split at h
  · split at h <;> cases h <;> exact .of_dev rfl
  · exact writeStep_sameConfig hmap h
  · exact writeStep_sameConfig hmap h
  · split at h
    · exact writeStep_sameConfig hmap h
    · cases h
      exact .of_dev rfl
  · exact writeStep_sameConfig hmap h
  · exact writeStep_sameConfig hmap h
  · exact readStep_sameConfig hmap h (afterPoll_dev bytes loc)
  · exact writeStep_sameConfig hmap h
  · cases h

theorem stepTryReceive_sameConfig {n pc sub : Nat} {loc : Locals} (h : stepTryReceive n pc sub loc s = .next t) :
    s.SameConfig t := by
  unfold stepTryReceive at h
  split at h
  · exact writeStep_sameConfig hmap h
  · exact readStep_sameConfig hmap h (afterFlags_dev n loc)
  · exact writeStep_sameConfig hmap h
  · exact readStep_sameConfig hmap h
  · split at h
    · exact readStep_sameConfig hmap h
    · exact writeStep_sameConfig hmap h
    · cases h
  · split at h
    · exact readStep_sameConfig hmap h
    · cases h
      exact .of_dev rfl
  · cases h

end

/-- Settles O53: a turn answers a codec call or is one step of the operation. -/
theorem framerWritesNoConfiguration : Obligations.FramerWritesNoConfiguration := by
  unfold Obligations.FramerWritesNoConfiguration
  intro s t req pc sub loc hmap ho hreset hinit h
  show s.SameConfig t
  unfold controllerTurn at h
  split at h
  · rename_i c more _
    obtain ⟨r, e⟩ := exec_codecCall c s.cfg.maxFrameLen (s.setCalls more)
    cases e.symm.trans h
    exact .of_dev rfl
  · simp only [ho] at h
    cases req with
    | reset => exact absurd rfl hreset
    | init => exact absurd rfl hinit
    | setMode m => exact stepSetMode_sameConfig hmap h
    | send bytes => exact stepSend_sameConfig hmap h
    | tryReceive n => exact stepTryReceive_sameConfig hmap h

end Sys2Proof.Machine
end

section
/-! SUPPORT. For O31 to O35: runs of the controller up to the response bytes and the draws, and what the accesses of the
framer do on a reliable bus. -/

namespace Sys2Proof.Machine

/-! ## Runs up to the draws -/

/-- `s` with other response bytes and another count of draws, which no step of `send` or `tryReceive` looks at before a
read has set them (R10, R58). -/
def State.drawn (s : State) (b : BusIn) (n : Nat) : State := (s.setBus b).setFree n

@[simp] theorem State.drawn_dev (s : State) (b : BusIn) (n : Nat) : (s.drawn b n).dev = s.dev := rfl
@[simp] theorem State.drawn_ctl (s : State) (b : BusIn) (n : Nat) : (s.drawn b n).ctl = s.ctl := rfl
@[simp] theorem State.drawn_air (s : State) (b : BusIn) (n : Nat) : (s.drawn b n).air = s.air := rfl
@[simp] theorem State.drawn_fault (s : State) (b : BusIn) (n : Nat) : (s.drawn b n).fault = s.fault := rfl
@[simp] theorem State.drawn_refusal (s : State) (b : BusIn) (n : Nat) : (s.drawn b n).refusal = s.refusal := rfl

/-- From `s`, whatever its response bytes and draws, `k` turns of the controller lead to a state of `P`, up to these. -/
def Turns (k : Nat) (s : State) (P : State → Prop) : Prop :=
  ∀ b n, ∃ t b' n', runController k (s.drawn b n) = .next (t.drawn b' n') ∧ P t

/-- Nothing has stopped the node, no codec call is pending, the parameters are sound and the device answers: the turns of
the controller are steps of its running operation. Of the device this sees the reset line only, so it holds by unfolding
of the updates that `send` and `tryReceive` make. -/
def State.undisturbed (s : State) : Prop :=
  s.fault = none ∧ s.refusal = none ∧ s.calls = [] ∧ s.cfg.wf = true ∧ s.busReady

theorem State.undisturbed_of_operable {s : State} (h : s.operable) : s.undisturbed := by
  obtain ⟨hf, hr, hc, -, hwf, hbus⟩ := h
  exact ⟨hf, hr, hc, hwf, hbus⟩

theorem State.wf_of_undisturbed {s : State} (h : s.undisturbed) : s.cfg.wf = true := by
  obtain ⟨-, -, -, hwf, -⟩ := h
  exact hwf

theorem State.running_of_undisturbed {s : State} (h : s.undisturbed) : s.stopped = false := by
  obtain ⟨hf, hr, -⟩ := h
  rw [State.stopped, hf, hr]
  rfl

section
variable {j k : Nat} {s t : State} {P Q : State → Prop}

theorem Turns.run (h : Turns k s P) : ∃ t b n, runController k s = .next (t.drawn b n) ∧ P t := h s.bus s.free

theorem Turns.none : Turns 0 s (· = s) := fun b n => ⟨s, b, n, rfl, rfl⟩

theorem Turns.mono (h : Turns k s P) (hPQ : ∀ t, P t → Q t) : Turns k s Q := fun b n =>
  let ⟨t, b', n', ht, hP⟩ := h b n
  ⟨t, b', n', ht, hPQ t hP⟩

theorem Turns.bind (h : Turns j s P) (hk : ∀ t, P t → Turns k t Q) : Turns (j + k) s Q := by
  intro b n
  obtain ⟨t, b', n', ht, hP⟩ := h b n
  rw [runController_add ht]
  exact hk t hP b' n'

theorem Turns.trans (h : Turns j s (· = t)) (hk : Turns k t Q) : Turns (j + k) s Q := h.bind fun _ e => e ▸ hk

theorem Turns.cast (h : Turns j s P) (hk : k = j := by omega) : Turns k s P := hk ▸ h

end

section
variable {req : Request} {pc sub : Nat} {loc : Locals} {s t : State} {P : State → Prop}
  (hs : s.undisturbed) (ho : s.ctl.op = .running req pc sub loc)
include hs ho

/-- A step without an access is one turn. -/
theorem Turns.quiet (hstep : ∀ b n, stepOp req pc sub loc (s.drawn b n) = .next (t.drawn b n)) : Turns 1 s (· = t) := by
  obtain ⟨-, -, hc, -⟩ := hs
  exact fun b n => ⟨t, b, n, runController_step (s := s.drawn b n) hc ho (hstep b n), rfl⟩

/-- A step that writes a register is one turn: the register's rule, and then the operation goes on (R75). -/
theorem Turns.write (r : RegName) (v : Byte) (k : State → State)
    (hstep : ∀ b n, stepOp req pc sub loc (s.drawn b n) = andThen (busWriteReg r v (s.drawn b n)) k)
    (h : ∀ b n, ∃ q, writeRule r v (s.drawn b n) = .done q ∧
      ∃ t, P t ∧ k q.respondDrawn = t.drawn q.respondDrawn.bus q.respondDrawn.free) : Turns 1 s P := by
  intro b n
  have hrun := State.running_of_undisturbed hs
  obtain ⟨-, -, hc, hwf, hbus⟩ := hs
  obtain ⟨q, hw, t, hP, hk⟩ := h b n
  have hturn := andThen_busWriteReg (s := s.drawn b n) (Params.regMap_wf hwf) hbus hrun k hw
  rw [hk] at hturn
  exact ⟨t, _, _, runController_step (s := s.drawn b n) hc ho ((hstep b n).trans hturn), hP⟩

/-- A step that reads a register is one turn: the register's rule, and then the operation goes on with the value read
(R74). -/
theorem Turns.read (r : RegName) (k : State → State)
    (hstep : ∀ b n, stepOp req pc sub loc (s.drawn b n) = andThen (busReadReg r (s.drawn b n)) k)
    (h : ∀ b n, ∃ v q, readRule r (s.drawn b n) = .done (v, q) ∧
      ∃ t, P t ∧ k (q.respond v) = t.drawn (q.respond v).bus (q.respond v).free) : Turns 1 s P := by
  intro b n
  have hrun := State.running_of_undisturbed hs
  obtain ⟨-, -, hc, hwf, hbus⟩ := hs
  obtain ⟨v, q, hr, t, hP, hk⟩ := h b n
  have hturn := andThen_busReadReg (s := s.drawn b n) (Params.regMap_wf hwf) hbus hrun k hr
    (readRule_draws_forward hr).1
  rw [hk] at hturn
  exact ⟨t, _, _, runController_step (s := s.drawn b n) hc ho ((hstep b n).trans hturn), hP⟩

end

/-! ## What the framer's accesses do -/

theorem Params.doneBits_ne {p : Params} (h : p.wf = true) : p.txDoneBit ≠ p.rxDoneBit := by
  simp only [Params.wf, Bool.and_eq_true] at h
  obtain ⟨⟨⟨⟨-, hbits⟩, -⟩, -⟩, -⟩ := h
  exact of_decide_eq_true hbits

theorem Params.pollBound_pos {p : Params} {k : Nat} (h : p.wf = true) (hk : p.txPollBound = some k) : 1 ≤ k := by
  simp only [Params.wf, Bool.and_eq_true] at h
  obtain ⟨⟨⟨-, hpoll⟩, -⟩, -⟩ := h
  rw [Params.pollOk, hk] at hpoll
  exact of_decide_eq_true hpoll

theorem testMask_irqByte_txDone {p : Params} (h : p.wf = true) (other : Byte) (d : Dev) :
    testMask (irqByte p other d) (txDoneMask p) = d.txDone :=
  (testMask_bitMask _ _).trans (irqByte_txDone other d (Params.doneBits_ne h))

theorem testMask_irqByte_rxDone (p : Params) (other : Byte) (d : Dev) :
    testMask (irqByte p other d) (rxDoneMask p) = d.rxDone :=
  (testMask_bitMask _ _).trans (irqByte_rxDone p other d)

/-- The mask of one flag clears that flag only (R62, R108). -/
theorem clearedBy_bitMask (i j : BitPos) (flag : Bool) :
    clearedBy (bitMask i) j flag = if j = i then false else flag := by
  simp only [clearedBy_eq, getLsbD_bitMask, decide_eq_true_eq]

theorem clearFlags_txDoneMask {s : State} (h : s.cfg.wf = true) :
    s.clearFlags (txDoneMask s.cfg) = s.setDev { s.dev with txDone := false } := by
  simp only [State.clearFlags, txDoneMask, clearedBy_bitMask, if_true, if_neg (Params.doneBits_ne h).symm]

theorem clearFlags_rxDoneMask {s : State} (h : s.cfg.wf = true) :
    s.clearFlags (rxDoneMask s.cfg) = s.setDev { s.dev with rxDone := false } := by
  simp only [State.clearFlags, rxDoneMask, clearedBy_bitMask, if_true, if_neg (Params.doneBits_ne h)]

theorem toNat_ofNat_length {f : List Byte} (h : f.length ≤ 255) : (BitVec.ofNat 8 f.length).toNat = f.length :=
  Nat.mod_eq_of_lt (by omega)

theorem add_ofNat_succ (p : Byte) (i : Nat) : p + BitVec.ofNat 8 (i + 1) = p + 1 + BitVec.ofNat 8 i := by
  rw [Nat.add_comm, BitVec.ofNat_add, ← BitVec.add_assoc]
  rfl

theorem readStored_of_known {s : State} {r : StoreReg} {v : Byte} (h : s.reg r = .known v) :
    readStored r s = .done (v, s) := by
  rw [readStored, h, State.valueOf_known]

theorem readFifo_of_known {s : State} {p c : Byte} (hmode : s.dev.mode = .standby ∨ s.dev.mode = .receiveContinuous)
    (hp : s.reg .fifoAddrPtr = .known p) (hc : s.buf p = .known c) :
    readFifo s = .done (c, s.setReg .fifoAddrPtr (p + 1)) := by
  rw [readFifo_of_access ((fifoAccess_done_iff s p).mpr ⟨hmode, hp⟩), hc, State.valueOf_known]

/-- A mode write of the controller to a long-range device, on a cell of R121 that is allowed. -/
theorem modeWrite_opModeByte {s : State} {old m : Mode} (hwf : s.cfg.wf = true) (hlong : s.dev.lr = true)
    (hold : s.dev.mode = old) (hcell : modeAllowed old m = true) :
    modeWrite (opModeByte s.cfg.codes m) s = modeEffect old m (s.setMode true 0#4 m) := by
  obtain ⟨hcode, hmid, hlr⟩ := opModeByte_fields s.cfg.codes m
  rw [modeWrite_passes (Params.codes_wf hwf) hcode.symm (.inl (hlr.trans hlong.symm)) (fun _ => hlr) (hold ▸ hcell),
    hlr, hmid, hold]

theorem modeAllowed_standby (m : Mode) : modeAllowed m .standby = true := by
  cases m <;> rfl

/-- A frame that stands in the buffer is captured as it is (R122). -/
theorem captureFrame_of_known {s : State} {b : Byte} {f : List Byte}
    (h : ∀ i x, f[i]? = some x → s.buf (b + BitVec.ofNat 8 i) = .known x) : (captureFrame f.length b s).1 = f := by
  obtain ⟨hlen, -, -⟩ := captureFrame_frame f.length b s
  obtain ⟨hknown, -⟩ := captureFrame_bytes f.length b s
  refine List.ext_getElem? fun i => ?_
  by_cases hi : i < f.length
  · rw [List.getElem?_eq_getElem hi]
    exact hknown i _ hi (h i _ (List.getElem?_eq_getElem hi))
  · rw [List.getElem?_eq_none (by omega), List.getElem?_eq_none (by omega)]

/-- Entering Transmit from Standby with a frame in the buffer at the transmit base takes that frame (R122). -/
theorem modeWrite_transmit {s : State} {b : Byte} {f : List Byte} (hwf : s.cfg.wf = true) (hlong : s.dev.lr = true)
    (hmode : s.dev.mode = .standby) (hlen : f.length ≤ 255)
    (hn : s.reg .payloadLength = .known (BitVec.ofNat 8 f.length)) (hb : s.reg .fifoTxBaseAddr = .known b)
    (h : ∀ i x, f[i]? = some x → s.buf (b + BitVec.ofNat 8 i) = .known x) :
    ∃ n, modeWrite (opModeByte s.cfg.codes .transmit) s =
      .done (((s.setMode true 0#4 .transmit).setFree n).setTxJob (some f)) := by
  have hn' := toNat_ofNat_length hlen
  have hstart := txStart_known (s := s.setMode true 0#4 .transmit) hn hb
  rw [hn', captureFrame_of_known (s := s.setMode true 0#4 .transmit) h] at hstart
  exact ⟨_, (modeWrite_opModeByte hwf hlong hmode rfl).trans ((modeEffect_enter (by decide) _).trans hstart)⟩

end Sys2Proof.Machine
end

section
/-! O31, O32, O33: `send`, turn by turn. Step 2 may abort a transmission, which is where the runs differ; steps 3 to 6 end
in one state, with the payload pending; the polls leave only their count. -/

namespace Sys2Proof.Machine

/-- An operation that ends in its first turn leaves its result in the controller, which is idle again. -/
theorem State.start_finish {s : State} {req : Request} {r : Result} (ho : s.ctl.op = .idle) :
    (s.start req).finish r = s.setResult (some r) := by
  rw [State.setResult, State.finish, State.setOp, ← ho]
  rfl

/-- Settles O31: step 1 of `send` looks at the length only. -/
theorem sendTooLargeTouchesNothing : Obligations.SendTooLargeTouchesNothing := by
  unfold Obligations.SendTooLargeTouchesNothing
  intro s bytes ho hc hlife
  refine ⟨s.start (.send bytes), exec_request_starts (req := .send bytes) ho (by simp [takenIn, hlife]) rfl,
    fun hlong => ?_, fun hshort => ?_⟩
  · rw [← State.start_finish ho]
    exact runController_step (s := s.start (.send bytes)) hc rfl (if_pos hlong)
  · exact runController_step (s := s.start (.send bytes)) hc rfl (if_neg (Nat.not_lt.mpr hshort))

/-! ## Steps 2 to 6 -/

section
variable {x : State} {bytes : List Byte} {loc : Locals} (hx : x.undisturbed)
include hx

/-- Step 2: Standby, which aborts a transmission (R128, R124). -/
theorem turns_send_standby (hlong : x.dev.lr = true) : Turns 1 (x.goto (.send bytes) 2 0 loc) fun t =>
    ∃ a j, (x.dev.mode ≠ .transmit → a = x.air) ∧
      t = (((x.setMode true 0#4 .standby).setAir a).setTxJob j).goto (.send bytes) 3 0 loc := by
  have hwf := State.wf_of_undisturbed hx
  refine .write hx rfl .opMode (opModeByte x.cfg.codes .standby) (·.goto (.send bytes) 3 0 loc) (fun _ _ => rfl)
    fun b n => ?_
  by_cases hm : x.dev.mode = .transmit
  · have hwrite := modeWrite_opModeByte (s := (x.goto (.send bytes) 2 0 loc).drawn b n) hwf hlong hm
      (modeAllowed_standby _)
    obtain ⟨a, n', habort, -⟩ :=
      txAbort_emits (((x.goto (.send bytes) 2 0 loc).drawn b n).setMode true 0#4 .standby)
    rw [modeEffect_leave (by decide), habort] at hwrite
    exact ⟨_, hwrite, _, ⟨a, none, fun h => absurd hm h, rfl⟩, rfl⟩
  · have hwrite := modeWrite_opModeByte (s := (x.goto (.send bytes) 2 0 loc).drawn b n) hwf hlong rfl
      (modeAllowed_standby _)
    exact ⟨_, hwrite.trans (modeEffect_other hm (by decide) _), _, ⟨x.air, x.dev.txJob, fun _ => rfl, rfl⟩, rfl⟩

/-- Step 4: the bytes go into the buffer one after another, a turn each (R98, R128). -/
theorem turns_send_bytes {rest : List Byte} {sub : Nat} {m : Memory} {p : Byte} (hmode : x.dev.mode = .standby)
    (hrest : bytes.drop sub = rest) :
    Turns rest.length (((x.setFifo m).setReg .fifoAddrPtr p).goto (.send bytes) 4 sub loc)
      (· = ((x.setFifo (m.writeBytes p rest)).setReg .fifoAddrPtr (p + BitVec.ofNat 8 rest.length)).goto (.send bytes)
        4 (sub + rest.length) loc) := by
  induction rest generalizing sub m p with
  | nil =>
    simp only [List.length_nil, BitVec.add_zero, Nat.add_zero]
    exact .none
  | cons c rest ih =>
    have hc : bytes[sub]? = some c := by
      have h := List.getElem?_drop (xs := bytes) (i := sub) (j := 0)
      rw [hrest] at h
      exact h.symm
    have hrest' : bytes.drop (sub + 1) = rest := by rw [← List.tail_drop, hrest, List.tail_cons]
    have hfirst : Turns 1 (((x.setFifo m).setReg .fifoAddrPtr p).goto (.send bytes) 4 sub loc)
        (· = ((x.setFifo (m.write p.toNat c)).setReg .fifoAddrPtr (p + 1)).goto (.send bytes) 4 (sub + 1) loc) := by
      refine .write hx rfl .fifo c (·.goto (.send bytes) 4 (sub + 1) loc) (fun b n => ?_) fun b n =>
        ⟨_, writeFifo_of_access (s := (((x.setFifo m).setReg .fifoAddrPtr p).goto (.send bytes) 4 sub loc).drawn b n)
          ((fifoAccess_done_iff _ p).mpr ⟨.inl hmode, rfl⟩) c, _, rfl, rfl⟩
      simp only [stepOp, stepSend, hc]
    have hlast := ih (m := m.write p.toNat c) (p := p + 1) hrest'
    rw [← add_ofNat_succ, Nat.add_assoc, Nat.add_comm 1] at hlast
    exact (hfirst.trans hlast).cast (Nat.add_comm ..)

/-- Step 6: Transmit, which takes the payload that stands in the buffer (R122, R128). -/
theorem turns_send_transmit (hlong : x.dev.lr = true) (hmode : x.dev.mode = .standby) (hlen : bytes.length ≤ 255)
    (hn : x.reg .payloadLength = .known (BitVec.ofNat 8 bytes.length)) (hbase : x.reg .fifoTxBaseAddr = .known 0#8)
    (hstored : ∀ i c, bytes[i]? = some c → x.buf (0#8 + BitVec.ofNat 8 i) = .known c) :
    Turns 1 (x.goto (.send bytes) 6 0 loc) (· =
      ((x.setMode true 0#4 .transmit).setTxJob (some bytes)).goto (.send bytes) 7 0 { loc with polls := 0 }) := by
  refine .write hx rfl .opMode (opModeByte x.cfg.codes .transmit) (·.goto (.send bytes) 7 0 { loc with polls := 0 })
    (fun _ _ => rfl) fun b n => ?_
  obtain ⟨m, hwrite⟩ := modeWrite_transmit (s := (x.goto (.send bytes) 6 0 loc).drawn b n)
    (State.wf_of_undisturbed hx) hlong hmode hlen hn hbase hstored
  exact ⟨_, hwrite, _, rfl, rfl⟩

end

/-- `x` with the payload `bytes` in the buffer and the pointer behind it, as steps 3 and 4 of `send` leave it (R128). -/
def State.stored (x : State) (bytes : List Byte) : State :=
  (x.setFifo (x.dev.fifo.writeBytes 0#8 bytes)).setReg .fifoAddrPtr (BitVec.ofNat 8 bytes.length)

/-- `x` in Transmit with the payload `bytes` pending, as steps 3 to 6 of `send` leave it (R128). -/
def State.transmitting (x : State) (bytes : List Byte) : State :=
  (((x.stored bytes).setReg .payloadLength (BitVec.ofNat 8 bytes.length)).setMode true 0#4 .transmit).setTxJob
    (some bytes)

section
variable {x : State} {bytes : List Byte} {loc : Locals} (hx : x.undisturbed) (hmode : x.dev.mode = .standby)
include hx hmode

/-- Steps 3 and 4, and the turn that leaves the loop (log 23). -/
theorem turns_send_store : Turns (bytes.length + 2) (x.goto (.send bytes) 3 0 loc)
    (· = (x.stored bytes).goto (.send bytes) 5 0 loc) := by
  have hpointer : Turns 1 (x.goto (.send bytes) 3 0 loc)
      (· = ((x.setFifo x.dev.fifo).setReg .fifoAddrPtr 0#8).goto (.send bytes) 4 0 loc) :=
    .write hx rfl .fifoAddrPtr 0x00#8 (·.goto (.send bytes) 4 0 loc) (fun _ _ => rfl)
      fun _ _ => ⟨_, rfl, _, rfl, rfl⟩
  have hbytes := turns_send_bytes (bytes := bytes) (loc := loc) (sub := 0) (m := x.dev.fifo) (p := 0#8) hx hmode rfl
  rw [Nat.zero_add, BitVec.zero_add, List.drop_zero] at hbytes
  have hleave : Turns 1 ((x.stored bytes).goto (.send bytes) 4 bytes.length loc)
      (· = (x.stored bytes).goto (.send bytes) 5 0 loc) := by
    refine .quiet hx rfl fun b n => ?_
    simp only [stepOp, stepSend, List.getElem?_eq_none (Nat.le_refl _)]
    rfl
  exact (hpointer.trans (hbytes.trans hleave)).cast

/-- Steps 3 to 6: the payload, its length, and then Transmit, which takes the bytes just stored (R122). -/
theorem turns_send_load (hlong : x.dev.lr = true) (hbase : x.reg .fifoTxBaseAddr = .known 0#8)
    (hlen : bytes.length ≤ 255) : Turns (bytes.length + 4) (x.goto (.send bytes) 3 0 loc)
      (· = (x.transmitting bytes).goto (.send bytes) 7 0 { loc with polls := 0 }) := by
  have hlength : Turns 1 ((x.stored bytes).goto (.send bytes) 5 0 loc)
      (· = ((x.stored bytes).setReg .payloadLength (BitVec.ofNat 8 bytes.length)).goto (.send bytes) 6 0 loc) := by
    refine .write hx rfl .payloadLength (BitVec.ofNat 8 bytes.length) (·.goto (.send bytes) 6 0 loc) (fun _ _ => rfl)
      fun _ _ => ⟨_, if_neg fun h => ?_, _, rfl, rfl⟩
    cases hmode.symm.trans h
  have htransmit := turns_send_transmit (x := (x.stored bytes).setReg .payloadLength (BitVec.ofNat 8 bytes.length))
    (loc := loc) hx hlong hmode hlen rfl hbase fun i c hc =>
      Memory.read_writeBytes_self x.dev.fifo 0#8 bytes (by omega) hc
  exact ((turns_send_store hx hmode).trans (hlength.trans htransmit)).cast

end

/-! ## The polls -/

/-- The locals of `send` after a poll that read `flags` (R128). -/
def Locals.polled (loc : Locals) (flags : Byte) : Locals := { loc with flags := flags, polls := loc.polls + 1 }

section
variable {bytes : List Byte} {loc : Locals} {t : State}

theorem afterPoll_of_done (h : testMask t.bus.resp1 (txDoneMask t.cfg) = true) :
    afterPoll bytes loc t = t.goto (.send bytes) 8 0 (loc.polled t.bus.resp1) := if_pos h

theorem afterPoll_of_bound (h : testMask t.bus.resp1 (txDoneMask t.cfg) = false)
    (hbound : pollBoundReached t.cfg.txPollBound (loc.polls + 1) = true) :
    afterPoll bytes loc t = t.finish .timeout := by
  simp only [afterPoll, h, hbound, Bool.false_eq_true, if_false, if_true]

theorem afterPoll_of_again (h : testMask t.bus.resp1 (txDoneMask t.cfg) = false)
    (hbound : pollBoundReached t.cfg.txPollBound (loc.polls + 1) = false) :
    afterPoll bytes loc t = t.goto (.send bytes) 7 0 (loc.polled t.bus.resp1) := by
  simp only [afterPoll, h, hbound, Bool.false_eq_true, if_false]
  rfl

end

section
variable {x : State} {bytes : List Byte} {loc : Locals} (hx : x.undisturbed)
include hx

/-- A poll that sees the completion goes on to step 8 (R89, R128). -/
theorem turns_send_poll_done (hdone : x.dev.txDone = true) :
    Turns 1 (x.goto (.send bytes) 7 0 loc) fun t => ∃ flags, t = x.goto (.send bytes) 8 0 (loc.polled flags) := by
  have hwf := State.wf_of_undisturbed hx
  exact .read hx rfl .irqFlags (afterPoll bytes loc) (fun _ _ => rfl) fun b n =>
    ⟨_, _, rfl, _, ⟨_, rfl⟩, afterPoll_of_done ((testMask_irqByte_txDone hwf _ x.dev).trans hdone)⟩

/-- A poll without a completion that reaches the bound ends `send` (R128, R147). -/
theorem turns_send_poll_timeout (hdone : x.dev.txDone = false)
    (hbound : pollBoundReached x.cfg.txPollBound (loc.polls + 1) = true) :
    Turns 1 (x.goto (.send bytes) 7 0 loc) (· = x.finish .timeout) := by
  have hwf := State.wf_of_undisturbed hx
  exact .read hx rfl .irqFlags (afterPoll bytes loc) (fun _ _ => rfl) fun b n =>
    ⟨_, _, rfl, _, rfl, afterPoll_of_bound ((testMask_irqByte_txDone hwf _ x.dev).trans hdone) hbound⟩

/-- A poll without a completion below the bound is repeated (R128). -/
theorem turns_send_poll_again (hdone : x.dev.txDone = false)
    (hbound : pollBoundReached x.cfg.txPollBound (loc.polls + 1) = false) :
    Turns 1 (x.goto (.send bytes) 7 0 loc) fun t => ∃ flags, t = x.goto (.send bytes) 7 0 (loc.polled flags) := by
  have hwf := State.wf_of_undisturbed hx
  exact .read hx rfl .irqFlags (afterPoll bytes loc) (fun _ _ => rfl) fun b n =>
    ⟨_, _, rfl, _, ⟨_, rfl⟩, afterPoll_of_again ((testMask_irqByte_txDone hwf _ x.dev).trans hdone) hbound⟩

/-- With no completion the polls go on as long as the bound is not reached (R128 step 7). -/
theorem turns_send_polls (hdone : x.dev.txDone = false) (k : Nat)
    (hbound : ∀ j, j ≤ loc.polls + k → pollBoundReached x.cfg.txPollBound j = false) :
    Turns k (x.goto (.send bytes) 7 0 loc) fun t =>
      ∃ loc', loc'.polls = loc.polls + k ∧ t = x.goto (.send bytes) 7 0 loc' := by
  induction k with
  | zero => exact Turns.none.mono fun t e => ⟨loc, rfl, e⟩
  | succ k ih =>
    refine (ih fun j hj => hbound j (by omega)).bind ?_
    rintro t ⟨loc', hpolls, rfl⟩
    refine (turns_send_poll_again hx hdone (hbound _ (by omega))).mono ?_
    rintro t ⟨flags, rfl⟩
    exact ⟨loc'.polled flags, by rw [Locals.polled, hpolls, Nat.add_assoc], rfl⟩

/-- With no completion and a bound of `k` polls, the last of them ends `send` (R128 step 7, R147). -/
theorem turns_send_timeout {k : Nat} (hdone : x.dev.txDone = false) (hk : x.cfg.txPollBound = some k)
    (hpolls : loc.polls = 0) : Turns k (x.goto (.send bytes) 7 0 loc) (· = x.finish .timeout) := by
  have hwf := State.wf_of_undisturbed hx
  have hpos := Params.pollBound_pos hwf hk
  have hbound : ∀ j, pollBoundReached x.cfg.txPollBound j = decide (k ≤ j) := fun j => by rw [hk, pollBoundReached]
  have hlast : Turns (k - 1 + 1) (x.goto (.send bytes) 7 0 loc) (· = x.finish .timeout) := by
    refine (turns_send_polls hx hdone (k - 1) fun j hj => ?_).bind ?_
    · rw [hbound]
      exact decide_eq_false (by omega)
    · rintro t ⟨loc', hlast, rfl⟩
      refine turns_send_poll_timeout hx hdone ?_
      rw [hbound]
      exact decide_eq_true (by omega)
  exact hlast.cast

/-- Steps 7 and 8 after a completion: the poll sees the flag, which is then cleared (R128). -/
theorem turns_send_complete (hdone : x.dev.txDone = true) : Turns 2 (x.goto (.send bytes) 7 0 loc)
    (· = (x.setDev { x.dev with txDone := false }).finish .success) := by
  have hwf := State.wf_of_undisturbed hx
  refine (turns_send_poll_done hx hdone).bind (k := 1) ?_
  rintro t ⟨flags, rfl⟩
  rw [← clearFlags_txDoneMask hwf]
  exact .write hx rfl .irqFlags (txDoneMask x.cfg) (·.finish .success) (fun _ _ => rfl)
    fun _ _ => ⟨_, rfl, _, rfl, rfl⟩

/-- With TxComplete before the poll, `send` emits its frame and ends (R123, R128). -/
theorem runController_send_completed {f : List Byte} (hmode : x.dev.mode = .transmit) (hjob : x.dev.txJob = some f)
    (b : BusIn) (n : Nat) : ∃ b' n', runController 2 (txComplete ((x.goto (.send bytes) 7 0 loc).drawn b n)) =
      .next ((((x.setAir (x.air ++ [.full f])).setDev
        { x.dev with txJob := none, txDone := false, mode := .standby }).finish .success).drawn b' n') := by
  have hevent := txComplete_of_pending (s := (x.goto (.send bytes) 7 0 loc).drawn b n) hmode hjob
  obtain ⟨_, b', n', hturns, rfl⟩ := turns_send_complete (bytes := bytes) (loc := loc)
    (x := (x.setAir (x.air ++ [.full f])).setDev { x.dev with txJob := none, txDone := true, mode := .standby })
    hx rfl b n
  exact ⟨b', n', (congrArg (runController 2) hevent).trans hturns⟩

end

/-! ## The whole run -/

/-- `x` is what steps 1 to 6 of `send` make of `s`: Transmit with the payload pending. Only a transmission that step 2
aborts may have emitted something (R128, R124). -/
structure SendingFrom (s : State) (bytes : List Byte) (x : State) : Prop where
  undisturbed : x.undisturbed
  cfg : x.cfg = s.cfg
  ctl : x.ctl = s.ctl
  air : s.dev.mode ≠ .transmit → x.air = s.air
  mode : x.dev.mode = .transmit
  txJob : x.dev.txJob = some bytes
  txDone : x.dev.txDone = s.dev.txDone
  rxDone : x.dev.rxDone = s.dev.rxDone
  length : x.reg .payloadLength = .known (BitVec.ofNat 8 bytes.length)
  pointer : x.reg .fifoAddrPtr = .known (BitVec.ofNat 8 bytes.length)

/-- The request, and steps 1 to 6 (R128). -/
theorem turns_send {s : State} {bytes : List Byte} (hs : s.operable) (hlife : s.ctl.life = .ready)
    (hlong : s.dev.lr = true) (hbase : s.reg .fifoTxBaseAddr = .known 0#8) (hlen : bytes.length ≤ 255) :
    exec (.send bytes) s = .next (s.start (.send bytes)) ∧ Turns (bytes.length + 6) (s.start (.send bytes)) fun t =>
      ∃ x, SendingFrom s bytes x ∧ t = x.goto (.send bytes) 7 0 Locals.blank := by
  have hrun := State.undisturbed_of_operable hs
  have ⟨_, _, _, ho, _, _⟩ := hs
  refine ⟨exec_request_starts (req := .send bytes) ho (by simp [takenIn, hlife]) rfl, ?_⟩
  have hshort : Turns 1 (s.start (.send bytes)) (· = s.goto (.send bytes) 2 0 Locals.blank) :=
    .quiet hrun rfl fun _ _ => if_neg (Nat.not_lt.mpr hlen)
  have hload : Turns (1 + (bytes.length + 4)) (s.goto (.send bytes) 2 0 Locals.blank) fun t =>
      ∃ x, SendingFrom s bytes x ∧ t = x.goto (.send bytes) 7 0 Locals.blank := by
    refine (turns_send_standby hrun hlong).bind ?_
    rintro t ⟨a, j, ha, rfl⟩
    refine (turns_send_load (x := ((s.setMode true 0#4 .standby).setAir a).setTxJob j) hrun rfl rfl hbase hlen).mono ?_
    rintro t rfl
    refine ⟨_, ?_, rfl⟩
    exact ⟨hrun, rfl, rfl, ha, rfl, rfl, rfl, rfl, rfl, rfl⟩
  exact (hshort.trans hload).cast

/-- Settles O32: the event empties the transmitter, and the poll then sees the flag. -/
theorem sendTransmitsThePayload : Obligations.SendTransmitsThePayload := by
  unfold Obligations.SendTransmitsThePayload
  intro s bytes hs hlife hlong _ hbase hlen
  obtain ⟨hstart, hsend⟩ := turns_send hs hlife hlong hbase hlen
  obtain ⟨_, b, n, hpoll, x, hx, rfl⟩ := hsend.run
  obtain ⟨b', n', hend⟩ := runController_send_completed (bytes := bytes) (loc := Locals.blank) hx.undisturbed
    hx.mode hx.txJob b n
  obtain ⟨hf, hr, -⟩ := hx.undisturbed
  exact ⟨_, _, _, hstart, hpoll, hx.mode, hx.txJob, hx.length, hx.pointer, hx.air, hend, by simp [hx.ctl, hlife], rfl,
    rfl, rfl, rfl, hx.rxDone, hf, hr⟩

/-- Settles O33: the polls before the last are below the bound, and the last one reaches it. -/
theorem sendTimesOutOrPollsForEver : Obligations.SendTimesOutOrPollsForEver := by
  unfold Obligations.SendTimesOutOrPollsForEver
  intro s bytes hs hlife hlong _ hbase hlen hdone
  obtain ⟨hstart, hsend⟩ := turns_send hs hlife hlong hbase hlen
  refine ⟨_, hstart, fun k hk => ?_, fun hnone k => ?_⟩
  · have htimeout : Turns (bytes.length + 6 + k) (s.start (.send bytes)) fun t =>
        ∃ x, SendingFrom s bytes x ∧ t = x.finish .timeout := by
      refine hsend.bind ?_
      rintro t ⟨x, hx, rfl⟩
      exact (turns_send_timeout hx.undisturbed (hx.txDone.trans hdone) (hx.cfg ▸ hk) rfl).mono fun t e => ⟨x, hx, e⟩
    obtain ⟨_, b, n, hend, x, hx, rfl⟩ := htimeout.run
    exact ⟨_, hend, by simp [hx.ctl, hlife], hx.mode, hx.txJob, hx.txDone.trans hdone⟩
  · have hpolling : Turns (bytes.length + 6 + k) (s.start (.send bytes)) fun t =>
        ∃ x loc, SendingFrom s bytes x ∧ loc.polls = k ∧ t = x.goto (.send bytes) 7 0 loc := by
      refine hsend.bind ?_
      rintro t ⟨x, hx, rfl⟩
      refine (turns_send_polls hx.undisturbed (hx.txDone.trans hdone) k fun j _ => ?_).mono ?_
      · rw [hx.cfg, hnone, pollBoundReached]
      · rintro t ⟨loc, hloc, rfl⟩
        exact ⟨x, loc, hx, hloc.trans (Nat.zero_add k), rfl⟩
    obtain ⟨_, b, n, hend, x, loc, hx, hloc, rfl⟩ := hpolling.run
    exact ⟨_, loc, hend, by simp [hx.ctl], hloc, hx.mode, hx.txJob⟩

end Sys2Proof.Machine
end

section
/-! O34, O35: `tryReceive`, turn by turn. The flag read in step 2 decides; the bytes of step 6 come from the buffer, which
no step changes. -/

namespace Sys2Proof.Machine

theorem afterFlags_of_frame {n : Nat} {loc : Locals} {t : State} (h : testMask t.bus.resp1 (rxDoneMask t.cfg) = true) :
    afterFlags n loc t = t.goto (.tryReceive n) 3 0 { loc with flags := t.bus.resp1 } := if_pos h

theorem afterFlags_of_noFrame {n : Nat} {loc : Locals} {t : State}
    (h : testMask t.bus.resp1 (rxDoneMask t.cfg) = false) : afterFlags n loc t = t.finish .noFrame := by
  simp only [afterFlags, h, Bool.false_eq_true, if_false]

/-- From Standby and from ReceiveContinuous the write of step 1 only sets the OP_MODE fields (R120, R121). -/
theorem modeWrite_receive {s : State} (hwf : s.cfg.wf = true) (hlong : s.dev.lr = true)
    (hmode : s.dev.mode = .standby ∨ s.dev.mode = .receiveContinuous) :
    modeWrite (opModeByte s.cfg.codes .receiveContinuous) s = .done (s.setMode true 0#4 .receiveContinuous) := by
  rcases hmode with hm | hm
  · exact (modeWrite_opModeByte hwf hlong hm rfl).trans (modeEffect_other (by decide) (by decide) _)
  · exact (modeWrite_opModeByte hwf hlong hm rfl).trans (modeEffect_other (by decide) (by decide) _)

/-- Settles O34: the write sets the OP_MODE fields, and the byte read shows that no frame is there. -/
theorem tryReceiveWithoutAFrame : Obligations.TryReceiveWithoutAFrame := by
  unfold Obligations.TryReceiveWithoutAFrame
  intro s n hs hlife hlong hmode hn hdone
  have hrun := State.running_of_undisturbed (State.undisturbed_of_operable hs)
  have ⟨_, _, hc, ho, hwf, hbus⟩ := hs
  have hmap := Params.regMap_wf hwf
  have hwrite := modeWrite_receive (s := s.start (.tryReceive n)) hwf hlong hmode
  have hfirst := andThen_busWriteReg (s := s.start (.tryReceive n)) (r := .opMode) hmap hbus hrun
    (fun t => t.goto (.tryReceive n) 2 0 Locals.blank) hwrite
  have hsecond := andThen_busReadReg (r := .irqFlags)
    (s := ((s.start (.tryReceive n)).setMode true 0#4 .receiveContinuous).respondDrawn.goto (.tryReceive n) 2 0
      Locals.blank)
    hmap hbus hrun (afterFlags n Locals.blank) rfl rfl
  rw [afterFlags_of_noFrame ((testMask_irqByte_rxDone _ _ _).trans hdone)] at hsecond
  refine ⟨s.start (.tryReceive n), _, Locals.blank, _, _,
    exec_request_starts (req := .tryReceive n) ho (by simp [takenIn, hlife]) (if_neg (by omega)),
    transWrite_of_done hbus.1 hbus.2 hwrite, runController_step (s := s.start (.tryReceive n)) hc rfl hfirst,
    transRead_of_value (rule := readIrqFlags) hbus rfl rfl,
    (runController_step (s := s.start (.tryReceive n)) hc rfl hfirst).trans (runController_step hc rfl hsecond), rfl,
    by simp [hlife], ?_, rfl⟩
  rw [← hlong]
  rfl

section
variable {x : State} {maxLength : Nat} {loc : Locals} (hx : x.undisturbed)
include hx

/-- Steps 1 and 2 with a frame there: ReceiveContinuous, and the flag is seen (R129). -/
theorem turns_receive_flag (hlong : x.dev.lr = true)
    (hmode : x.dev.mode = .standby ∨ x.dev.mode = .receiveContinuous) (hdone : x.dev.rxDone = true) :
    Turns 2 (x.goto (.tryReceive maxLength) 1 0 loc) fun t => ∃ flags,
      t = (x.setMode true 0#4 .receiveContinuous).goto (.tryReceive maxLength) 3 0 { loc with flags := flags } := by
  have hwf := State.wf_of_undisturbed hx
  have hwrite : Turns 1 (x.goto (.tryReceive maxLength) 1 0 loc)
      (· = (x.setMode true 0#4 .receiveContinuous).goto (.tryReceive maxLength) 2 0 loc) :=
    .write hx rfl .opMode (opModeByte x.cfg.codes .receiveContinuous) (·.goto (.tryReceive maxLength) 2 0 loc)
      (fun _ _ => rfl) fun b n =>
      ⟨_, modeWrite_receive (s := (x.goto (.tryReceive maxLength) 1 0 loc).drawn b n) hwf hlong hmode, _, rfl, rfl⟩
  refine hwrite.trans (k := 1) ?_
  exact .read hx rfl .irqFlags (afterFlags maxLength loc) (fun _ _ => rfl) fun b n =>
    ⟨_, _, rfl, _, ⟨_, rfl⟩, afterFlags_of_frame ((testMask_irqByte_rxDone _ _ _).trans hdone)⟩

/-- Steps 3 to 5: the flag is cleared, and the pointer is set to the start of the frame (R129). -/
theorem turns_receive_start {n start : Byte} (hn : x.reg .rxNbBytes = .known n)
    (hstart : x.reg .fifoRxCurrentAddr = .known start) : Turns 4 (x.goto (.tryReceive maxLength) 3 0 loc)
      (· = ((x.setDev { x.dev with rxDone := false }).setReg .fifoAddrPtr start).goto (.tryReceive maxLength) 6 0
        { loc with n := n, addr := start, k := receiveCount n maxLength, out := [] }) := by
  have hwf := State.wf_of_undisturbed hx
  have hclear : Turns 1 (x.goto (.tryReceive maxLength) 3 0 loc)
      (· = (x.clearFlags (rxDoneMask x.cfg)).goto (.tryReceive maxLength) 4 0 loc) :=
    .write hx rfl .irqFlags (rxDoneMask x.cfg) (·.goto (.tryReceive maxLength) 4 0 loc) (fun _ _ => rfl)
      fun _ _ => ⟨_, rfl, _, rfl, rfl⟩
  rw [clearFlags_rxDoneMask hwf] at hclear
  have hcount : Turns 1 ((x.setDev { x.dev with rxDone := false }).goto (.tryReceive maxLength) 4 0 loc)
      (· = (x.setDev { x.dev with rxDone := false }).goto (.tryReceive maxLength) 5 0 { loc with n := n }) :=
    .read hx rfl .rxNbBytes (fun t => t.goto (.tryReceive maxLength) 5 0 { loc with n := t.bus.resp1 })
      (fun _ _ => rfl) fun _ _ => ⟨_, _, readStored_of_known hn, _, rfl, rfl⟩
  have haddr : Turns 1 ((x.setDev { x.dev with rxDone := false }).goto (.tryReceive maxLength) 5 0 { loc with n := n })
      (· = (x.setDev { x.dev with rxDone := false }).goto (.tryReceive maxLength) 5 1
        { loc with n := n, addr := start }) :=
    .read hx rfl .fifoRxCurrentAddr
      (fun t => t.goto (.tryReceive maxLength) 5 1 { loc with n := n, addr := t.bus.resp1 })
      (fun _ _ => rfl) fun _ _ => ⟨_, _, readStored_of_known hstart, _, rfl, rfl⟩
  refine (hclear.trans (hcount.trans (haddr.trans ?_))).cast (j := 1 + (1 + (1 + 1)))
  exact .write hx rfl .fifoAddrPtr start (·.goto (.tryReceive maxLength) 6 0
    { loc with n := n, addr := start, k := receiveCount n maxLength, out := [] }) (fun _ _ => rfl)
    fun _ _ => ⟨_, rfl, _, rfl, rfl⟩

/-- Step 6: the bytes come out of the buffer one after another, a turn each (R79, R129). -/
theorem turns_receive_bytes {rest : List Byte} {sub : Nat} {p : Byte} (hmode : x.dev.mode = .receiveContinuous)
    (hk : sub + rest.length ≤ loc.k) (hbuf : ∀ i c, rest[i]? = some c → x.buf (p + BitVec.ofNat 8 i) = .known c) :
    Turns rest.length ((x.setReg .fifoAddrPtr p).goto (.tryReceive maxLength) 6 sub loc)
      (· = (x.setReg .fifoAddrPtr (p + BitVec.ofNat 8 rest.length)).goto (.tryReceive maxLength) 6 (sub + rest.length)
        { loc with out := loc.out ++ rest }) := by
  induction rest generalizing sub p loc with
  | nil =>
    simp only [List.length_nil, BitVec.add_zero, Nat.add_zero, List.append_nil]
    exact .none
  | cons c rest ih =>
    have hhead : x.buf p = .known c := by simpa using hbuf 0 c rfl
    rw [List.length_cons] at hk
    have hmore : sub < loc.k := by omega
    have hrest : sub + 1 + rest.length ≤ loc.k := by omega
    have hfirst : Turns 1 ((x.setReg .fifoAddrPtr p).goto (.tryReceive maxLength) 6 sub loc)
        (· = (x.setReg .fifoAddrPtr (p + 1)).goto (.tryReceive maxLength) 6 (sub + 1)
          { loc with out := loc.out ++ [c] }) :=
      .read hx rfl .fifo
        (fun t => t.goto (.tryReceive maxLength) 6 (sub + 1) { loc with out := loc.out ++ [t.bus.resp1] })
        (fun _ _ => if_pos hmore) fun b n => ⟨_, _, readFifo_of_known
          (s := ((x.setReg .fifoAddrPtr p).goto (.tryReceive maxLength) 6 sub loc).drawn b n) (.inr hmode) rfl hhead,
          _, rfl, rfl⟩
    have hlast := ih (loc := { loc with out := loc.out ++ [c] }) (sub := sub + 1) (p := p + 1) hrest
      (fun i d hd => by rw [← add_ofNat_succ]; exact hbuf (i + 1) d hd)
    rw [← add_ofNat_succ, Nat.add_assoc, Nat.add_comm 1, List.append_assoc] at hlast
    exact (hfirst.trans hlast).cast (Nat.add_comm ..)

/-- Steps 3 to 6, and the turn that leaves the loop (log 23): the first bytes of the frame in the buffer are the result
(R129, R131). -/
theorem turns_receive_frame {f : List Byte} {start : Byte} (hmode : x.dev.mode = .receiveContinuous)
    (hlen : f.length ≤ 255) (hn : x.reg .rxNbBytes = .known (BitVec.ofNat 8 f.length))
    (hstart : x.reg .fifoRxCurrentAddr = .known start)
    (hbuf : ∀ i c, f[i]? = some c → x.buf (start + BitVec.ofNat 8 i) = .known c) :
    Turns (min f.length (maxLength - 1) + 5) (x.goto (.tryReceive maxLength) 3 0 loc)
      (· = ((x.setDev { x.dev with rxDone := false }).setReg .fifoAddrPtr
        (start + BitVec.ofNat 8 (min f.length (maxLength - 1)))).finish
          (.frame (f.take (maxLength - 1) ++ [0x00#8]) (decide (maxLength - 1 < f.length)))) := by
  have hn' := toNat_ofNat_length hlen
  have hcount : min f.length (maxLength - 1) = (f.take (maxLength - 1)).length := by
    rw [List.length_take, Nat.min_comm]
  have hbegin := turns_receive_start (maxLength := maxLength) (loc := loc) hx hn hstart
  rw [receiveCount, hn', hcount] at hbegin
  have hbytes := turns_receive_bytes (x := x.setDev { x.dev with rxDone := false }) (maxLength := maxLength)
    (loc := { loc with n := BitVec.ofNat 8 f.length, addr := start, k := (f.take (maxLength - 1)).length, out := [] })
    (rest := f.take (maxLength - 1)) (sub := 0) (p := start) hx hmode (by rw [Nat.zero_add]) fun i c hc => by
      rw [List.getElem?_take, Option.ite_none_right_eq_some] at hc
      exact hbuf i c hc.2
  rw [Nat.zero_add, List.nil_append] at hbytes
  rw [hcount]
  refine (hbegin.trans (hbytes.trans (k := 1) ?_)).cast
  refine .quiet hx rfl fun b n => ?_
  simp only [stepOp, stepTryReceive, Nat.lt_irrefl, if_false, frameResult, hn']
  rfl

end

/-- Settles O35: step 6 reads the frame from its start on, and ends with what it has read. -/
theorem tryReceiveReturnsTheFrame : Obligations.TryReceiveReturnsTheFrame := by
  unfold Obligations.TryReceiveReturnsTheFrame
  intro s maxLength f start hs hlife hlong hmode hmax hdone hlen hn hstart hbuf
  have hrun := State.undisturbed_of_operable hs
  have ⟨hf, hr, _, ho, _, _⟩ := hs
  have hturns : Turns (min f.length (maxLength - 1) + 7) (s.start (.tryReceive maxLength))
      (· = (((s.setMode true 0#4 .receiveContinuous).setDev
        { (s.setMode true 0#4 .receiveContinuous).dev with rxDone := false }).setReg .fifoAddrPtr
          (start + BitVec.ofNat 8 (min f.length (maxLength - 1)))).finish
          (.frame (f.take (maxLength - 1) ++ [0x00#8]) (decide (maxLength - 1 < f.length)))) := by
    refine ((turns_receive_flag hrun hlong hmode hdone).bind ?_).cast
      (j := 2 + (min f.length (maxLength - 1) + 5))
    rintro t ⟨flags, rfl⟩
    exact turns_receive_frame (x := s.setMode true 0#4 .receiveContinuous) hrun rfl hlen hn hstart hbuf
  obtain ⟨_, b, n, hend, rfl⟩ := hturns.run
  refine ⟨_, _, exec_request_starts (req := .tryReceive maxLength) ho (by simp [takenIn, hlife]) (if_neg (by omega)),
    hend, by simp [hlife], ?_, rfl, by simp [hf], by simp [hr]⟩
  rw [← hlong]
  rfl

end Sys2Proof.Machine
end

section
/-! O37, O38, O42: the codec's numbers. `hundredths` is the floor of R134, the strings that `fmt2` and `fmtu` write denote it, and
the parsers accept exactly the strings of the grammar of R140, which those are. -/

namespace Sys2Proof.Machine

/-! ## Rounding -/

theorem isNegative_iff {q : ℚ} : isNegative q = true ↔ q < 0 := by
  rw [isNegative, decide_eq_true_iff, Rat.num_neg]

/-- The quotient of naturals is the floor of R134. -/
theorem hundredths_eq_floor (q : ℚ) : (hundredths q : ℤ) = ⌊|q| * 100 + 1 / 2⌋ := by
  have hden : (q.den : ℚ) ≠ 0 := Nat.cast_ne_zero.mpr q.den_nz
  have hq : |q| * 100 + 1 / 2 = ((q.num.natAbs * 200 + q.den : ℕ) : ℤ) / (2 * q.den : ℕ) := by
    rw [Rat.abs_def, Rat.divInt_eq_div]
    push_cast
    field_simp
    ring
  rw [hq, Rat.floor_intCast_div_natCast, hundredths]
  exact Int.natCast_div _ _

/-- `round2` is the hundredths with the sign (R134). -/
theorem round2_eq (q : ℚ) : round2 q = (if q < 0 then -1 else 1) * (hundredths q : ℚ) / 100 := by
  rw [round2, Rat.mkRat_eq_div]
  by_cases hq : q < 0
  · rw [if_pos (isNegative_iff.mpr hq), if_pos hq]
    push_cast
    ring
  · rw [if_neg (mt isNegative_iff.mp hq), if_neg hq]
    push_cast
    ring

/-- Settles O37: the natural `round2` computes is the floor. -/
theorem roundHalfAwayFromZero : Obligations.RoundHalfAwayFromZero := by
  unfold Obligations.RoundHalfAwayFromZero
  intro q
  rw [round2_eq, ← hundredths_eq_floor, Int.cast_natCast]

/-- The hundredths that `fmt2` writes are those of `|round2 q|` (R135). -/
theorem hundredths_eq_abs_round2 (q : ℚ) : (hundredths q : ℚ) = |round2 q| * 100 := by
  have hsign : |(if q < 0 then -1 else 1 : ℚ)| = 1 := by split <;> norm_num
  rw [round2_eq, abs_div, abs_mul, hsign, Nat.abs_cast]
  norm_num

/-- Rounding to hundredths moves a value by at most half a hundredth (R142). -/
theorem abs_round2_sub_le (q : ℚ) : |round2 q - q| ≤ 1 / 200 := by
  have hfloor : (hundredths q : ℚ) = (⌊|q| * 100 + 1 / 2⌋ : ℚ) := by
    rw [← hundredths_eq_floor, Int.cast_natCast]
  have hle := Int.floor_le (|q| * 100 + 1 / 2)
  have hlt := Int.lt_floor_add_one (|q| * 100 + 1 / 2)
  rw [← hfloor] at hle hlt
  rw [round2_eq, abs_le]
  split <;> rename_i hq
  · rw [abs_of_neg hq] at hle hlt
    constructor <;> linarith
  · rw [abs_of_nonneg (not_lt.mp hq)] at hle hlt
    constructor <;> linarith

/-! ## Rendering -/

theorem isDigits_iff {ds : List Byte} : isDigits ds = true ↔ ds ≠ [] ∧ ds.all isDigit = true := by
  cases ds <;> simp [isDigits]

theorem isDigits_dec (x : Nat) : isDigits (dec x) = true := by
  obtain ⟨hdigits, -, hne, -⟩ := dec_spec x
  exact isDigits_iff.mpr ⟨hne, hdigits⟩

theorem natOfDigits_dec (x : Nat) : natOfDigits (dec x) = x := by
  obtain ⟨-, hvalue, -⟩ := dec_spec x
  exact hvalue

theorem isDigits_two (a b : Nat) : isDigits [dig a, dig b] = true := by
  simp [isDigits, isDigit_dig]

/-- The whole part and the two decimals of `n` hundredths, side by side, denote `n`. -/
theorem natOfDigits_hundredths (n : Nat) :
    natOfDigits (dec (n / 100) ++ [dig (n % 100 / 10), dig (n % 10)]) = n := by
  have htwo : natOfDigits [dig (n % 100 / 10), dig (n % 10)] = n % 100 / 10 % 10 * 10 + n % 10 % 10 := by
    simp [natOfDigits, digitVal_dig]
  rw [natOfDigits_append, natOfDigits_dec, htwo, List.length_cons, List.length_singleton]
  omega

/-- A number below `10 ^ (k + 1)` has at most `k + 1` digits. -/
theorem decFuel_length_le {k x : Nat} (fuel : Nat) (hx : x < 10 ^ (k + 1)) : (decFuel fuel x).length ≤ k + 1 := by
  induction fuel generalizing k x with
  | zero => exact Nat.zero_le _
  | succ fuel ih =>
    unfold decFuel
    split
    · exact Nat.succ_le_succ (Nat.zero_le k)
    · cases k with
      | zero => omega
      | succ k =>
        have hdiv : x / 10 < 10 ^ (k + 1) := by rw [pow_succ] at hx; omega
        rw [List.length_append, List.length_singleton]
        exact Nat.succ_le_succ (ih hdiv)

/-- Settles O38: the digits are those of the hundredths, and 32 bits need no more than ten. -/
theorem numbersRenderInDecimal : Obligations.NumbersRenderInDecimal := by
  unfold Obligations.NumbersRenderInDecimal
  refine ⟨fun q => ?_, fun x => ?_⟩
  · obtain ⟨hdigits, -, hne, hzero⟩ := dec_spec (hundredths q / 100)
    refine ⟨dec (hundredths q / 100), dig (hundredths q % 100 / 10), dig (hundredths q % 10), ?_, hne, hdigits, hzero,
      isDigit_dig _, isDigit_dig _, ?_⟩
    · simp [fmt2, isNegative_iff, chMinus, chPoint]
    · rw [natOfDigits_hundredths, hundredths_eq_abs_round2]
  · obtain ⟨hdigits, hvalue, hne, hzero⟩ := dec_spec x.toNat
    have hten : x.toNat < 10 ^ (9 + 1) := x.isLt.trans (by norm_num)
    exact ⟨hdigits, hzero, hvalue, List.length_pos_of_ne_nil hne, decFuel_length_le _ hten⟩

/-! ## Parsing -/

/-- `["." digit+]`: the point and the decimals, where there are decimals (R140). -/
def pointAndDecimals (fr : List Byte) : List Byte := if fr = [] then [] else chPoint :: fr

theorem parseUnsigned_grammar {ds fr : List Byte} (hds : isDigits ds = true) (hfr : fr = [] ∨ isDigits fr = true) :
    parseUnsigned (ds ++ pointAndDecimals fr) = some (natOfDigits (ds ++ fr), fr.length) := by
  obtain ⟨-, hall⟩ := isDigits_iff.mp hds
  have hmem : ∀ c ∈ ds, isDigit c = true := List.all_eq_true.mp hall
  rcases hfr with rfl | hfr
  · simp [parseUnsigned, pointAndDecimals, List.dropWhile_eq_nil_iff.mpr hmem, hds]
  · obtain ⟨hne, -⟩ := isDigits_iff.mp hfr
    have hpoint : isDigit chPoint = false := by decide
    have hdrop : (ds ++ chPoint :: fr).dropWhile isDigit = chPoint :: fr := by
      rw [List.dropWhile_append_of_pos hmem, List.dropWhile_cons_of_neg (by simp [hpoint])]
    have htake : (ds ++ chPoint :: fr).takeWhile isDigit = ds := by
      rw [List.takeWhile_append_of_pos hmem, List.takeWhile_cons_of_neg (by simp [hpoint]), List.append_nil]
    rw [pointAndDecimals, if_neg hne, parseUnsigned, hdrop, htake]
    exact if_pos ⟨rfl, hds, hfr⟩

theorem grammar_of_parseUnsigned {x : List Byte} {u : Nat × Nat} (h : parseUnsigned x = some u) :
    ∃ ds fr, isDigits ds = true ∧ (fr = [] ∨ isDigits fr = true) ∧ x = ds ++ pointAndDecimals fr ∧
      u = (natOfDigits (ds ++ fr), fr.length) := by
  have hx := List.takeWhile_append_dropWhile (p := isDigit) (l := x)
  unfold parseUnsigned at h
  split at h
  · obtain ⟨hds, ⟨⟩⟩ := Option.ite_none_right_eq_some.mp h
    exact ⟨x, [], hds, .inl rfl, (List.append_nil x).symm, by rw [List.append_nil]; rfl⟩
  · rename_i c fr hdrop
    obtain ⟨⟨rfl, hds, hfr⟩, ⟨⟩⟩ := Option.ite_none_right_eq_some.mp h
    obtain ⟨hne, -⟩ := isDigits_iff.mp hfr
    exact ⟨_, fr, hds, .inr hfr, by rw [pointAndDecimals, if_neg hne, ← hdrop, hx], rfl⟩

/-- No unsigned number begins with a minus sign. -/
theorem parseUnsigned_minus (cs : List Byte) : parseUnsigned (chMinus :: cs) = none := by
  have hminus : isDigit chMinus = false := by decide
  have hpoint : chMinus ≠ chPoint := by decide
  rw [parseUnsigned, List.dropWhile_cons_of_neg (by simp [hminus])]
  exact if_neg fun h => hpoint h.1

/-- `parseNum` reads an optional minus and an unsigned number (R140). -/
theorem parseNum_eq_some {x : List Byte} {q : ℚ} : parseNum x = some q ↔
    ∃ (neg : Bool) (y : List Byte) (u : Nat × Nat), x = (if neg then [chMinus] else []) ++ y ∧ parseUnsigned y = some u ∧
      q = (if neg then -1 else 1) * ((u.1 : ℚ) / 10 ^ u.2) := by
  constructor
  · intro h
    cases x with
    | nil => cases h
    | cons c cs =>
      unfold parseNum at h
      dsimp only at h
      split at h
      · rename_i hc
        obtain ⟨u, hu, rfl⟩ := Option.map_eq_some_iff.mp h
        refine ⟨true, cs, u, by rw [hc]; rfl, hu, ?_⟩
        rw [Rat.mkRat_eq_div, if_pos rfl]
        push_cast
        ring
      · obtain ⟨u, hu, rfl⟩ := Option.map_eq_some_iff.mp h
        refine ⟨false, c :: cs, u, rfl, hu, ?_⟩
        rw [Rat.mkRat_eq_div, if_neg Bool.false_ne_true]
        push_cast
        ring
  · rintro ⟨neg, y, u, rfl, hu, rfl⟩
    cases neg with
    | true =>
      simp only [if_true, List.singleton_append, parseNum, hu, Option.map_some, Rat.mkRat_eq_div]
      push_cast
      congr 1
      ring
    | false =>
      cases y with
      | nil => cases hu
      | cons c cs =>
        have hc : c ≠ chMinus := by
          rintro rfl
          rw [parseUnsigned_minus] at hu
          cases hu
        simp [parseNum, hc, hu, Rat.mkRat_eq_div]

/-- Dropping the point scales a number by its count of decimals: what `parseUnsigned` keeps denotes the number (R140). -/
theorem natOfDigits_append_div (ds fr : List Byte) : (natOfDigits (ds ++ fr) : ℚ) / 10 ^ fr.length =
    (natOfDigits ds : ℚ) + (natOfDigits fr : ℚ) / 10 ^ fr.length := by
  rw [natOfDigits_append]
  push_cast
  field_simp

theorem parseU32_eq_some {x : List Byte} {n : BitVec 32} : parseU32 x = some n ↔
    isDigits x = true ∧ natOfDigits x < 2 ^ 32 ∧ n = BitVec.ofNat 32 (natOfDigits x) := by
  rw [parseU32, Option.ite_none_right_eq_some, Option.some.injEq, and_assoc, eq_comm (a := n)]

/-- Every rendered number is accepted, with the rounded value (R140). -/
theorem parseNum_fmt2 (q : ℚ) : parseNum (fmt2 q) = some (round2 q) := by
  refine parseNum_eq_some.mpr ⟨isNegative q, _, _, ?_, parseUnsigned_grammar (isDigits_dec (hundredths q / 100))
    (.inr (isDigits_two (hundredths q % 100 / 10) (hundredths q % 10))), ?_⟩
  · simp [fmt2, pointAndDecimals]
  · rw [natOfDigits_hundredths, round2_eq]
    simp only [isNegative_iff, List.length_cons, List.length_nil]
    ring

/-- Every rendered sequence is accepted, with its value (R140). -/
theorem parseU32_fmtu (n : BitVec 32) : parseU32 (fmtu n) = some n := by
  have hvalue : natOfDigits (fmtu n) = n.toNat := natOfDigits_dec n.toNat
  refine parseU32_eq_some.mpr ⟨isDigits_dec n.toNat, ?_, ?_⟩
  · rw [hvalue]
    exact n.isLt
  · rw [hvalue, BitVec.ofNat_toNat, BitVec.setWidth_eq]

/-- Settles O42: by the two halves of the grammar, the sign and the unsigned number. -/
theorem parsedNumbersAreTheGrammar : Obligations.ParsedNumbersAreTheGrammar := by
  unfold Obligations.ParsedNumbersAreTheGrammar
  refine ⟨fun x q => ?_, fun _ _ => parseU32_eq_some, parseNum_fmt2, parseU32_fmtu⟩
  rw [parseNum_eq_some]
  constructor
  · rintro ⟨neg, y, u, rfl, hu, rfl⟩
    obtain ⟨ds, fr, hds, hfr, rfl, rfl⟩ := grammar_of_parseUnsigned hu
    exact ⟨neg, ds, fr, hds, hfr, (List.append_assoc ..).symm, by rw [natOfDigits_append_div]⟩
  · rintro ⟨neg, ds, fr, hds, hfr, rfl, rfl⟩
    exact ⟨neg, _, _, List.append_assoc .., parseUnsigned_grammar hds hfr, by rw [natOfDigits_append_div]⟩

end Sys2Proof.Machine
end

section
/-! O36, O39, O40, O41, O43: the codec's fields and frames. An encoded frame is five comma-free fields joined by commas, which is
what `split` takes apart, and on those fields `decode` is the parsers under the policy. -/

namespace Sys2Proof.Machine

/-! ## The terminator and the fields -/

/-- What stands before the first 0x00 is read, whatever follows (R138). -/
theorem upToTerminator_append {s : List Byte} (h : (0x00#8 : Byte) ∉ s) (t : List Byte) :
    upToTerminator (s ++ t) = s ++ upToTerminator t := by
  induction s with
  | nil => rfl
  | cons c cs ih =>
    obtain ⟨hc, hcs⟩ := List.ne_and_not_mem_of_not_mem_cons h
    rw [List.cons_append, upToTerminator, if_neg (Ne.symm hc), ih hcs, List.cons_append]

theorem upToTerminator_of_not_mem {s : List Byte} (h : (0x00#8 : Byte) ∉ s) : upToTerminator s = s := by
  have happ := upToTerminator_append h []
  rwa [List.append_nil, upToTerminator, List.append_nil] at happ

theorem split_comma (cs : List Byte) : split (chComma :: cs) = [] :: split cs := by
  rw [split, if_pos rfl]

/-- A byte that is no comma goes to the front of the first field. -/
theorem split_cons {c : Byte} {cs f : List Byte} {fs : List (List Byte)} (hc : c ≠ chComma) (h : split cs = f :: fs) :
    split (c :: cs) = (c :: f) :: fs := by
  rw [split, if_neg hc, h]

/-- There is always a first field. -/
theorem exists_split (s : List Byte) : ∃ f fs, split s = f :: fs := by
  induction s with
  | nil => exact ⟨_, _, rfl⟩
  | cons c cs ih =>
    obtain ⟨f, fs, h⟩ := ih
    by_cases hc : c = chComma
    · exact ⟨_, _, hc ▸ split_comma cs⟩
    · exact ⟨_, _, split_cons hc h⟩

theorem split_length (s : List Byte) : (split s).length = s.count chComma + 1 := by
  induction s with
  | nil => rfl
  | cons c cs ih =>
    by_cases hc : c = chComma
    · rw [hc, split_comma, List.length_cons, ih, List.count_cons_self]
    · obtain ⟨f, fs, h⟩ := exists_split cs
      rw [split_cons hc h, List.count_cons_of_ne hc, ← ih, h, List.length_cons, List.length_cons]

theorem comma_not_mem_of_mem_split {s f : List Byte} (hf : f ∈ split s) : chComma ∉ f := by
  induction s generalizing f with
  | nil =>
    rw [List.mem_singleton.mp hf]
    exact List.not_mem_nil
  | cons c cs ih =>
    by_cases hc : c = chComma
    · rw [hc, split_comma] at hf
      rcases List.mem_cons.mp hf with rfl | hf
      · exact List.not_mem_nil
      · exact ih hf
    · obtain ⟨g, gs, h⟩ := exists_split cs
      rw [split_cons hc h] at hf
      rcases List.mem_cons.mp hf with rfl | hf
      · exact List.not_mem_cons_of_ne_of_not_mem (Ne.symm hc) (ih (h ▸ List.mem_cons_self))
      · exact ih (h ▸ List.mem_cons_of_mem g hf)

/-- The fields joined by commas are the string again (R139). -/
theorem intercalate_split (s : List Byte) : [chComma].intercalate (split s) = s := by
  induction s with
  | nil => rfl
  | cons c cs ih =>
    obtain ⟨f, fs, h⟩ := exists_split cs
    by_cases hc : c = chComma
    · rw [hc, split_comma, h, List.intercalate_cons_cons, ← h, ih]
      rfl
    · rw [split_cons hc h]
      rw [h] at ih
      cases fs with
      | nil => rw [List.intercalate_singleton] at ih ⊢; rw [ih]
      | cons g gs => rw [List.intercalate_cons_cons] at ih ⊢; rw [← ih]; rfl

/-- Settles O43: by induction on the string, as `split` and `upToTerminator` recurse. -/
theorem fieldsAreCutAtCommas : Obligations.FieldsAreCutAtCommas := by
  unfold Obligations.FieldsAreCutAtCommas
  refine ⟨fun s => ⟨split_length s, fun _ => comma_not_mem_of_mem_split, intercalate_split s⟩, fun s rest h =>
    ⟨?_, upToTerminator_of_not_mem h⟩⟩
  rw [upToTerminator_append h, upToTerminator, if_pos rfl, List.append_nil]

theorem split_of_not_mem {s : List Byte} (h : chComma ∉ s) : split s = [s] := by
  induction s with
  | nil => rfl
  | cons c cs ih =>
    obtain ⟨hc, hcs⟩ := List.ne_and_not_mem_of_not_mem_cons h
    exact split_cons (Ne.symm hc) (ih hcs)

/-- A comma-free string before a comma is a field of its own. -/
theorem split_append_comma {s : List Byte} (h : chComma ∉ s) (t : List Byte) :
    split (s ++ chComma :: t) = s :: split t := by
  induction s with
  | nil => exact split_comma t
  | cons c cs ih =>
    obtain ⟨hc, hcs⟩ := List.ne_and_not_mem_of_not_mem_cons h
    exact split_cons (Ne.symm hc) (ih hcs)

/-! ## Encoded frames -/

/-- Settles O36: the two checks of `encodeRecord`, in their order. -/
theorem encodeAnswers : Obligations.EncodeAnswers := by
  unfold Obligations.EncodeAnswers
  rintro ⟨tag, t, h, p, seq⟩ maxLen s
  refine ⟨_, rfl, ?_, ?_⟩
  · rintro (rfl | rfl | rfl)
    · rfl
    · cases t <;> rfl
    · cases t <;> cases h <;> rfl
  · rintro t h p rfl rfl rfl
    exact ⟨renderFrame t h p seq, rfl, fun hfits => if_neg (Nat.not_lt.mpr hfits), fun hlong => if_pos hlong⟩

/-- What `encode` gives is the frame of its record's three finite fields, within the bound (R137). -/
theorem encodeRecord_eq_encoded {rec : TelemetryRecord} {maxLen : Nat} {f : List Byte}
    (h : encodeRecord rec maxLen = .encoded f) : ∃ t h p, rec.temperature = .finite t ∧ rec.humidity = .finite h ∧
      rec.pressure = .finite p ∧ f = renderFrame t h p rec.sequence ∧ f.length ≤ maxLen := by
  unfold encodeRecord at h
  split at h
  · rename_i t hum p ht hh hp
    split at h
    · cases h
    · rename_i hfits
      cases h
      exact ⟨t, hum, p, ht, hh, hp, rfl, Nat.le_of_not_lt hfits⟩
  · cases h

theorem isDigit_of_mem_dec {c : Byte} {x : Nat} (h : c ∈ dec x) : isDigit c = true := by
  obtain ⟨hdigits, -⟩ := dec_spec x
  exact List.all_eq_true.mp hdigits c h

/-- The characters of a rendered number: a minus, a point, and digits (R135). -/
theorem mem_fmt2 {c : Byte} {q : ℚ} (h : c ∈ fmt2 q) : c = chMinus ∨ c = chPoint ∨ isDigit c = true := by
  simp only [fmt2, List.mem_append, List.mem_ite_nil_right, List.mem_cons, List.not_mem_nil, or_false] at h
  rcases h with ((⟨-, rfl⟩ | hdec) | rfl) | rfl | rfl
  · exact .inl rfl
  · exact .inr (.inr (isDigit_of_mem_dec hdec))
  · exact .inr (.inl rfl)
  · exact .inr (.inr (isDigit_dig _))
  · exact .inr (.inr (isDigit_dig _))

theorem comma_not_mem_fmt2 (q : ℚ) : chComma ∉ fmt2 q := fun h => by
  have hchar := mem_fmt2 h
  revert hchar
  decide

theorem comma_not_mem_fmtu (n : BitVec 32) : chComma ∉ fmtu n := fun h => by
  have hdigit := isDigit_of_mem_dec h
  revert hdigit
  decide

/-- An encoded frame is the tag, three numbers and the sequence (R137, R139). -/
theorem split_renderFrame (t h p : ℚ) (seq : BitVec 32) :
    split (renderFrame t h p seq) = [Config.tag, fmt2 t, fmt2 h, fmt2 p, fmtu seq] := by
  have htag : chComma ∉ Config.tag := by decide
  simp only [renderFrame, List.append_assoc, List.cons_append, List.nil_append]
  rw [split_append_comma htag, split_append_comma (comma_not_mem_fmt2 t), split_append_comma (comma_not_mem_fmt2 h),
    split_append_comma (comma_not_mem_fmt2 p), split_of_not_mem (comma_not_mem_fmtu seq)]

/-- The characters of an encoded frame (R143). -/
theorem mem_renderFrame {c : Byte} {t h p : ℚ} {seq : BitVec 32} (hc : c ∈ renderFrame t h p seq) :
    c ∈ Config.tag ++ [chComma, chMinus, chPoint] ∨ isDigit c = true := by
  have hcomma : chComma ∈ Config.tag ++ [chComma, chMinus, chPoint] := by decide
  have hnumber {q : ℚ} (hq : c ∈ fmt2 q) : c ∈ Config.tag ++ [chComma, chMinus, chPoint] ∨ isDigit c = true := by
    rcases mem_fmt2 hq with rfl | rfl | hd
    · exact .inl (by decide)
    · exact .inl (by decide)
    · exact .inr hd
  simp only [renderFrame, List.mem_append, List.mem_singleton] at hc
  rcases hc with (((((((htag | rfl) | hq) | rfl) | hq) | rfl) | hq) | rfl) | hseq
  · exact .inl (List.mem_append_left _ htag)
  · exact .inl hcomma
  · exact hnumber hq
  · exact .inl hcomma
  · exact hnumber hq
  · exact .inl hcomma
  · exact hnumber hq
  · exact .inl hcomma
  · exact .inr (isDigit_of_mem_dec hseq)

theorem zero_not_mem_renderFrame (t h p : ℚ) (seq : BitVec 32) : (0x00#8 : Byte) ∉ renderFrame t h p seq := fun hmem => by
  have hchar := mem_renderFrame hmem
  revert hchar
  decide

/-! ## Decoding, by the policy -/

@[simp] theorem orPolicy_reject {α : Type} (zero : α) (o : Option α) : orPolicy .reject zero o = o := by
  cases o <;> rfl

@[simp] theorem orPolicy_zero {α : Type} (zero : α) (o : Option α) : orPolicy .zero zero o = some (o.getD zero) := by
  cases o <;> rfl

@[simp] theorem orPolicy_some {α : Type} (p : ParsePolicy) (zero v : α) : orPolicy p zero (some v) = some v := rfl

theorem decodeSplit_of_ne {p : ParsePolicy} {f : List Byte} {fs : List (List Byte)} (h : f ≠ Config.tag) :
    decodeSplit p (f :: fs) = .tagMismatch := if_pos h

/-- Three fields after the tag, and maybe a sequence, are parsed (R141 step 2). -/
theorem decodeSplit_tag (p : ParsePolicy) (x1 x2 x3 : List Byte) {more : List (List Byte)} (h : more.length ≤ 1) :
    decodeSplit p (Config.tag :: x1 :: x2 :: x3 :: more) = decodeFields p x1 x2 x3 more := by
  match more, h with
  | [], _ => rfl
  | [_], _ => rfl

/-- Any other count of fields is refused (R141 step 2). -/
theorem decodeSplit_fieldCount (p : ParsePolicy) {fs : List (List Byte)} (h3 : fs.length ≠ 3) (h4 : fs.length ≠ 4) :
    decodeSplit p (Config.tag :: fs) = .fieldCount := by
  match fs, h3, h4 with
  | [], _, _ => rfl
  | [_], _, _ => rfl
  | [_, _], _, _ => rfl
  | [_, _, _], h3, _ => exact absurd rfl h3
  | [_, _, _, _], _, h4 => exact absurd rfl h4
  | _ :: _ :: _ :: _ :: _ :: _, _, _ => rfl

/-- A number that fails refuses the frame (R141 step 3). -/
theorem decodeFields_reject_none {x1 x2 x3 : List Byte} {more : List (List Byte)} (hmore : more.length ≤ 1)
    (h : parseNum x1 = none ∨ parseNum x2 = none ∨ parseNum x3 = none ∨ ∃ x ∈ more, parseU32 x = none) :
    decodeFields .reject x1 x2 x3 more = .badNumber := by
  have hseq : (∃ x ∈ more, parseU32 x = none) → parseSequence .reject more = none := by
    rintro ⟨x, hx, hnone⟩
    match more, hmore with
    | [y], _ => rw [parseSequence, orPolicy_reject, ← List.mem_singleton.mp hx, hnone, Option.map_none]
  unfold decodeFields
  simp only [orPolicy_reject]
  split
  · rename_i h1 h2 h3 h4
    rcases h with h | h | h | h
    · cases h1.symm.trans h
    · cases h2.symm.trans h
    · cases h3.symm.trans h
    · cases h4.symm.trans (hseq h)
  · rfl

/-- Numbers that all parse are the record's, under either policy (R141 step 5). -/
theorem decodeFields_some (p : ParsePolicy) {x1 x2 x3 : List Byte} {more : List (List Byte)} {v1 v2 v3 : ℚ}
    (hmore : more.length ≤ 1) (h1 : parseNum x1 = some v1) (h2 : parseNum x2 = some v2) (h3 : parseNum x3 = some v3)
    (hseq : ∀ x ∈ more, parseU32 x ≠ none) : decodeFields p x1 x2 x3 more =
      .decoded ⟨Config.tag, .finite v1, .finite v2, .finite v3, more.head?.bind parseU32⟩ := by
  have hmoreSeq : parseSequence p more = some (more.head?.bind parseU32) := by
    match more, hmore with
    | [], _ => rfl
    | [x], _ =>
      obtain ⟨n, hn⟩ := Option.ne_none_iff_exists'.mp (hseq x (List.mem_singleton_self x))
      simp [parseSequence, hn]
  simp only [decodeFields, h1, h2, h3, orPolicy_some, hmoreSeq]

/-- Under the other policy a number that fails is 0 (R141 steps 3 and 4). -/
theorem decodeFields_zero {x1 x2 x3 : List Byte} {more : List (List Byte)} (hmore : more.length ≤ 1) :
    decodeFields .zero x1 x2 x3 more = .decoded ⟨Config.tag, .finite ((parseNum x1).getD 0),
      .finite ((parseNum x2).getD 0), .finite ((parseNum x3).getD 0),
      more.head?.map fun x => (parseU32 x).getD 0#32⟩ := by
  have hseq : parseSequence .zero more = some (more.head?.map fun x => (parseU32 x).getD 0#32) := by
    match more, hmore with
    | [], _ => rfl
    | [x], _ => simp [parseSequence]
  simp only [decodeFields, orPolicy_zero, hseq]

/-- Settles O41: each check of `decodeSplit`, then the numbers by the policy. -/
theorem decodeAnswers : Obligations.DecodeAnswers := by
  unfold Obligations.DecodeAnswers
  intro bytes s
  obtain ⟨f0, fs, hsplit⟩ := exists_split (upToTerminator bytes)
  refine ⟨decodeSplit s.cfg.parseFailPolicy (f0 :: fs), f0, fs, by rw [← hsplit]; rfl, hsplit, decodeSplit_of_ne, ?_, ?_⟩
  · rintro rfl
    exact decodeSplit_fieldCount _
  · rintro x1 x2 x3 more rfl rfl hmore
    rw [show [0x54#8, 0x53#8] = Config.tag from rfl, decodeSplit_tag _ x1 x2 x3 hmore]
    refine ⟨fun hpolicy => ?_, fun hpolicy => ?_⟩ <;> rw [hpolicy]
    · exact ⟨decodeFields_reject_none hmore, fun _ _ _ => decodeFields_some _ hmore⟩
    · exact decodeFields_zero hmore

/-- Settles O40: an encoded frame's fields and characters are known, and the tag is the first check. -/
theorem encodedFramesAreWellFormed : Obligations.EncodedFramesAreWellFormed := by
  unfold Obligations.EncodedFramesAreWellFormed
  refine ⟨fun rec maxLen f hf => ?_, fun pol bytes f0 fs hsplit hne => ?_⟩
  · obtain ⟨t, h, p, -, -, -, rfl, hfits⟩ := encodeRecord_eq_encoded hf
    have hcommas := split_length (renderFrame t h p rec.sequence)
    rw [split_renderFrame] at hcommas
    exact ⟨hfits, hfits.trans, (Nat.succ.inj hcommas).symm, zero_not_mem_renderFrame t h p _, fun _ => mem_renderFrame⟩
  · rw [decodeFrame, hsplit, decodeSplit_of_ne hne]

/-- Decoding an encoded frame (R142). -/
theorem decodeFrame_renderFrame (pol : ParsePolicy) (t h p : ℚ) (seq : BitVec 32) :
    decodeFrame pol (renderFrame t h p seq) =
      .decoded ⟨Config.tag, .finite (round2 t), .finite (round2 h), .finite (round2 p), some seq⟩ := by
  have hseq : ∀ x ∈ [fmtu seq], parseU32 x ≠ none := fun x hx => by
    rw [List.mem_singleton.mp hx, parseU32_fmtu]
    exact Option.some_ne_none seq
  rw [decodeFrame, upToTerminator_of_not_mem (zero_not_mem_renderFrame t h p seq), split_renderFrame,
    decodeSplit_tag pol _ _ _ le_rfl, decodeFields_some pol le_rfl (parseNum_fmt2 t) (parseNum_fmt2 h) (parseNum_fmt2 p) hseq,
    List.head?_cons, Option.bind_some, parseU32_fmtu]

/-- Settles O39: the fields of the frame parse to what they were rendered from. -/
theorem decodeOfEncodedRecord : Obligations.DecodeOfEncodedRecord := by
  unfold Obligations.DecodeOfEncodedRecord
  intro tag t h p seq maxLen f pol hf
  obtain ⟨_, _, _, ⟨⟩, ⟨⟩, ⟨⟩, rfl, -⟩ := encodeRecord_eq_encoded hf
  exact ⟨decodeFrame_renderFrame pol t h p seq, abs_round2_sub_le t, abs_round2_sub_le h, abs_round2_sub_le p⟩

end Sys2Proof.Machine
end

section
/-! O54: a running operation and the refusals. A read is never refused; of the writes only that of a read-only register is, and
that of OP_MODE with a byte no mode has or without the long-range bit. An operation writes neither (`OperationWrite`), and on a
reliable bus the byte arrives as sent. -/

namespace Sys2Proof.Machine

/-! ## The writes an operation makes -/

/-- The registers a write to which the device may refuse (R107, R109, R116, R120). -/
def refusingRegisters : List RegName := [.opMode, .fifoRxCurrentAddr, .rxNbBytes, .version]

/-- A write such as the operations make (R118, R119, R128, R129): `opModeByte` to OP_MODE, or any byte to a register that
refuses nothing. -/
inductive OperationWrite (p : Params) : RegName → Byte → Prop where
  | mode (m : Mode) : OperationWrite p .opMode (opModeByte p.codes m)
  | accepted {r : RegName} {v : Byte} (hr : r ∉ refusingRegisters := by decide) : OperationWrite p r v

/-- Some mode has the code the controller writes, even where two modes share it (R61). -/
theorem modeOfCode_opModeByte_ne_none (c : ModeCodes) (m : Mode) : modeOfCode c (modeField (opModeByte c m)) ≠ none := by
  intro h
  have hm : m ∈ [Mode.sleep, .standby, .transmit, .receiveContinuous] := by cases m <;> decide
  rw [(opModeByte_fields c m).1] at h
  exact List.find?_eq_none.mp h m hm (beq_self_eq_true _)

/-- The byte the controller writes to OP_MODE has a mode and the long-range bit, so it may fault but is not refused (R120). -/
theorem modeWrite_opModeByte_ne_refuse (m : Mode) (s : State) (x : Refusal) :
    modeWrite (opModeByte s.cfg.codes m) s ≠ .refuse x := by
  intro h
  obtain ⟨-, -, hlr⟩ := opModeByte_fields s.cfg.codes m
  unfold modeWrite at h
  split at h
  · exact modeOfCode_opModeByte_ne_none s.cfg.codes m ‹_›
  · split at h
    · cases h
    · split at h
      · rename_i hlegacy
        exact absurd (hlr.symm.trans hlegacy.2) nofun
      · split at h
        · cases h
        · exact modeEffect_ne_refuse _ _ _ x h

/-- Only the refusing registers refuse (R98, R100 to R106, R108, R110 to R115). -/
theorem writeRule_ne_refuse {r : RegName} (hr : r ∉ refusingRegisters) (v : Byte) (s : State) (x : Refusal) :
    writeRule r v s ≠ .refuse x := by
  intro h
  cases r with
  | opMode | fifoRxCurrentAddr | rxNbBytes | version => exact hr (by decide)
  | fifoAddrPtr | irqFlags => cases h
  | fifo =>
    simp only [writeRule, writeFifo] at h
    split at h <;> cases h
    exact fifoAccess_ne_refuse s x ‹_›
  | payloadLength =>
    simp only [writeRule, writeLength] at h
    split at h <;> cases h
  | _ =>
    simp only [writeRule, writeConfig] at h
    split at h <;> cases h

theorem OperationWrite.writeRule_ne_refuse {s : State} {r : RegName} {v : Byte} (h : OperationWrite s.cfg r v)
    (x : Refusal) : writeRule r v s ≠ .refuse x := by
  cases h with
  | mode m => exact modeWrite_opModeByte_ne_refuse m s x
  | accepted hr => exact Machine.writeRule_ne_refuse hr v s x

/-- `init` writes OP_MODE for Standby and configuration registers (R118). -/
theorem initWrite_operationWrite {p : Params} {pc : Nat} {r : RegName} {v : Byte} (h : initWrite p pc = some (r, v)) :
    OperationWrite p r v := by
  unfold initWrite at h
  split at h <;> cases h
  · exact .mode .standby
  all_goals exact .accepted

/-! ## The refusal mark over a step -/

/-- If the answer goes on, it leaves the refusal mark of `s`. -/
def KeepsRefusal (s : State) (a : Answer) : Prop := ∀ t, a = .next t → t.refusal = s.refusal

theorem KeepsRefusal.of_eq {s t : State} (h : t.refusal = s.refusal) : KeepsRefusal s (.next t) := fun _ e => by
  cases e
  exact h

theorem KeepsRefusal.noSuchStep (s : State) : KeepsRefusal s (.fault .noSuchStep) := fun _ e => nomatch e

/-- After its transaction an operation only moves the controller. -/
theorem KeepsRefusal.andThen {s : State} {a : Answer} {k : State → State} (h : KeepsRefusal s a)
    (hk : ∀ u, ∃ c, k u = u.setCtl c) : KeepsRefusal s (andThen a k) := by
  cases a with
  | next u =>
    have hu : u.refusal = s.refusal := h u rfl
    obtain ⟨c, hc⟩ := hk u
    rw [andThen_next, hc]
    split <;> exact .of_eq hu
  | fault f => exact fun _ e => nomatch e
  | refused x => exact fun _ e => nomatch e

theorem transRead_keepsRefusal (r : RegName) (s : State) : KeepsRefusal s (transRead (readRule r) s) := fun t h => by
  rcases transRead_update h with ⟨f, rfl⟩ | ⟨b, n, rfl⟩ | ⟨-, p, b, n, rfl⟩ <;> rfl

/-- A write of an operation is refused only for a byte that the bus has altered (R77). -/
theorem transWrite_keepsRefusal {s : State} {r : RegName} {v : Byte} (hrel : s.cfg.busReliable = true)
    (hw : OperationWrite s.cfg r v) : KeepsRefusal s (transWrite (writeRule r) v s) := fun t h => by
  rcases transWrite_cases (writeRule r) v s with ⟨-, e⟩ | ⟨-, u, hu, e⟩ | ⟨-, f, -, e⟩ | ⟨-, x, hx, -⟩
  · cases h.symm.trans e
    rfl
  · cases h.symm.trans e
    exact (carryWrite_sameControl hu).refusal
  · cases h.symm.trans e
    rfl
  · simp only [carryWrite, hrel, if_true] at hx
    exact absurd hx (hw.writeRule_ne_refuse x)

section
variable {s : State} (hmap : s.cfg.regMap.wf = true)
include hmap

theorem KeepsRefusal.read (r : RegName) {k : State → State} (hk : ∀ u, ∃ c, k u = u.setCtl c) :
    KeepsRefusal s (Machine.andThen (busReadReg r s) k) := by
  rw [(controllerAccessesRunTheInstruction r 0#8 s hmap).1, exec_ofRead]
  exact (transRead_keepsRefusal r s).andThen hk

variable (hrel : s.cfg.busReliable = true)
include hrel

theorem KeepsRefusal.write {r : RegName} {v : Byte} (hw : OperationWrite s.cfg r v) {k : State → State}
    (hk : ∀ u, ∃ c, k u = u.setCtl c := by exact fun _ => ⟨_, rfl⟩) :
    KeepsRefusal s (Machine.andThen (busWriteReg r v s) k) := by
  rw [(controllerAccessesRunTheInstruction r v s hmap).2, exec_ofWrite]
  exact (transWrite_keepsRefusal hrel hw).andThen hk

end

/-! ## The steps of the operations -/

theorem stepReset_keepsRefusal (pc : Nat) (loc : Locals) (s : State) : KeepsRefusal s (stepReset pc loc s) := by
  unfold stepReset
  split
  · exact .noSuchStep s
  · rename_i t ht
    rw [resetStep_eq ht]
    split <;> exact .of_eq rfl

section
variable {s : State} (hmap : s.cfg.regMap.wf = true) (hrel : s.cfg.busReliable = true)
include hmap hrel

theorem stepInit_keepsRefusal (pc sub : Nat) (loc : Locals) : KeepsRefusal s (stepInit pc sub loc s) := by
  unfold stepInit
  split
  · split
    · exact .noSuchStep s
    · rename_i t ht
      rw [resetStep_eq ht]
      split <;> exact .of_eq rfl
  · exact .read hmap _ fun _ => ⟨_, rfl⟩
  · split <;> exact .of_eq rfl
  · exact .of_eq rfl
  · split
    · rename_i hw
      exact .write hmap hrel (initWrite_operationWrite hw)
    · exact .noSuchStep s

theorem stepSetMode_keepsRefusal (m : Mode) (pc : Nat) : KeepsRefusal s (stepSetMode m pc s) := by
  unfold stepSetMode
  split
  · exact .write hmap hrel (.mode m)
  · exact .noSuchStep s

theorem stepSend_keepsRefusal (bytes : List Byte) (pc sub : Nat) (loc : Locals) :
    KeepsRefusal s (stepSend bytes pc sub loc s) := by
  unfold stepSend
  split
  · split <;> exact .of_eq rfl
  · exact .write hmap hrel (.mode .standby)
  · exact .write hmap hrel .accepted
  · split
    · exact .write hmap hrel .accepted
    · exact .of_eq rfl
  · exact .write hmap hrel .accepted
  · exact .write hmap hrel (.mode .transmit)
  · exact .read hmap _ (afterPoll_eq bytes loc)
  · exact .write hmap hrel .accepted
  · exact .noSuchStep s

theorem stepTryReceive_keepsRefusal (n pc sub : Nat) (loc : Locals) : KeepsRefusal s (stepTryReceive n pc sub loc s) := by
  unfold stepTryReceive
  split
  · exact .write hmap hrel (.mode .receiveContinuous)
  · exact .read hmap _ (afterFlags_eq n loc)
  · exact .write hmap hrel .accepted
  · exact .read hmap _ fun _ => ⟨_, rfl⟩
  · split
    · exact .read hmap _ fun _ => ⟨_, rfl⟩
    · exact .write hmap hrel .accepted
    · exact .noSuchStep s
  · split
    · exact .read hmap _ fun _ => ⟨_, rfl⟩
    · exact .of_eq rfl
  · exact .noSuchStep s

theorem stepOp_keepsRefusal (req : Request) (pc sub : Nat) (loc : Locals) : KeepsRefusal s (stepOp req pc sub loc s) := by
  cases req with
  | reset => exact stepReset_keepsRefusal pc loc s
  | init => exact stepInit_keepsRefusal hmap hrel pc sub loc
  | setMode m => exact stepSetMode_keepsRefusal hmap hrel m pc
  | send bytes => exact stepSend_keepsRefusal hmap hrel bytes pc sub loc
  | tryReceive n => exact stepTryReceive_keepsRefusal hmap hrel n pc sub loc

end

/-- A turn with a codec call pending answers it, whatever runs (R152; log 19). -/
theorem controllerTurn_codecCall {c : CodecCall} {more : List CodecCall} {s : State} (hc : s.calls = c :: more) :
    ∃ r, controllerTurn s = .next ((s.setCalls more).setResult (some r)) := by
  simp only [controllerTurn, hc]
  exact exec_codecCall c s.cfg.maxFrameLen (s.setCalls more)

/-- Settles O54: a turn answers a codec call or is one step of the operation. -/
theorem runningOperationsNeverRefuse : Obligations.RunningOperationsNeverRefuse := by
  unfold Obligations.RunningOperationsNeverRefuse
  intro s t req pc sub loc hmap hrel ho h
  cases hc : s.calls with
  | nil =>
    simp only [controllerTurn, hc, ho] at h
    exact stepOp_keepsRefusal hmap hrel req pc sub loc t h
  | cons c more =>
    obtain ⟨r, e⟩ := controllerTurn_codecCall hc
    cases e.symm.trans h
    rfl

end Sys2Proof.Machine
end

section
/-! O26, O27, O48: the requests that do not start an operation, being faulted, refused or held, and the node that stops. -/

namespace Sys2Proof.Machine

/-! ## Requests -/

section
variable {req : Request} {s : State}

/-- An idle controller faults a request its lifecycle state does not take, whatever the argument (R151). -/
theorem exec_request_faults (ho : s.ctl.op = .idle) (ht : takenIn req s.ctl.life = false) :
    exec req.toInstr s = .next (s.faulted .requestInWrongState) := by
  simp only [exec_toInstr, offer, ho, ht, Bool.false_eq_true, if_false, raise_eq]

/-- One it takes is refused on a bad argument (R149). -/
theorem exec_request_refused {x : Refusal} (ho : s.ctl.op = .idle) (ht : takenIn req s.ctl.life = true)
    (ha : badArgument req s.cfg = some x) : exec req.toInstr s = .next (s.refusedFor x) := by
  simp only [exec_toInstr, offer, ho, ht, ha, if_true, refuse_eq]

/-- While an operation runs every request is held (R152). -/
theorem exec_request_held {req' : Request} {pc sub : Nat} {loc : Locals} (ho : s.ctl.op = .running req' pc sub loc) :
    exec req.toInstr s = .next (s.hold req) := by
  simp only [exec_toInstr, offer, ho]

end

/-- Settles O26: the row of R151 for each request, and the one argument a Ready block refuses. -/
theorem requestGuards : Obligations.RequestGuards := by
  unfold Obligations.RequestGuards
  intro s ho
  have hfault : ∀ req : Request, takenIn req s.ctl.life = false →
      exec req.toInstr s = .next (s.faulted .requestInWrongState) := fun _ => exec_request_faults ho
  refine ⟨fun hl => hfault .reset ?_, fun hl => hfault .init (decide_eq_false hl), fun hl => ?_, fun hl => ?_⟩
  · rw [hl]
    rfl
  · exact ⟨fun m => hfault (.setMode m) (decide_eq_false hl), fun bs => hfault (.send bs) (decide_eq_false hl),
      fun n => hfault (.tryReceive n) (decide_eq_false hl)⟩
  · exact exec_request_refused (req := .tryReceive 0) ho (decide_eq_true hl) rfl

/-- Settles O27: a request is held, and a codec call is answered before the operation is looked at. -/
theorem requestsAreHeldWhileRunning : Obligations.RequestsAreHeldWhileRunning := by
  unfold Obligations.RequestsAreHeldWhileRunning
  exact ⟨fun _ _ _ _ _ _ => exec_request_held, fun _ _ _ => controllerTurn_codecCall⟩

/-! ## The stopped node -/

theorem step_of_fault {s : State} {f : Fault} (hf : s.fault = some f) : step s = .fault f := by
  simp only [step, nodeStep, hf]

theorem step_of_refusal {s : State} {r : Refusal} (hf : s.fault = none) (hr : s.refusal = some r) :
    step s = .refused r := by
  simp only [step, nodeStep, hf, hr]

/-- Settles O48: the step looks at the fault mark first, then at the refusal mark, and only then lets an agent move. -/
theorem stoppedNodeTakesNoStep : Obligations.StoppedNodeTakesNoStep := by
  unfold Obligations.StoppedNodeTakesNoStep
  exact fun s => ⟨fun _ => step_of_fault, fun _ => step_of_refusal⟩

end Sys2Proof.Machine
end

section
/-! O60: power-on. What the reset state holds in its registers and its buffer, and why each of the invariants that every step
keeps holds there. -/

namespace Sys2Proof.Machine

/-! ## The contents -/

theorem State.reset_reg (r : StoreReg) : State.reset.reg r = .unknown := by
  cases r <;> rfl

theorem State.reset_buf (p : Byte) : State.reset.buf p = .unknown := rfl

/-- The line is released and the default bus is reliable, so the identity is read as in any other state. -/
theorem State.reset_busReady : State.reset.busReady := ⟨rfl, rfl⟩

theorem exec_rdVersion_reset (d : Byte) :
    exec (.rdVersion d) State.reset = .next (State.reset.respond State.reset.cfg.devId) :=
  (versionReadGivesTheIdentity d State.reset State.reset_busReady).1

/-! ## The invariants -/

/-- Sleep is not active, and no frame is pending. -/
theorem State.reset_modeOk : State.reset.modeOk := State.modeOk_of_inactive rfl rfl

/-- There is neither a pending frame nor an emitted one. -/
theorem State.reset_framesOk : State.reset.framesOk := by
  constructor
  · intro f hf
    cases hf
  · intro e he
    cases he

/-- The controller is idle, where the line has to be released. -/
theorem State.reset_positionOk : State.reset.positionOk := show Line.released = .released from rfl

/-- Settles O60: the fields as the reset state is written, then its contents and the invariants by the lemmas above. -/
theorem powerOnState : Obligations.PowerOnState := by
  unfold Obligations.PowerOnState
  exact ⟨⟨rfl, rfl, rfl, rfl, rfl, State.reset_reg, State.reset_buf, rfl, rfl, rfl, rfl, rfl, rfl, exec_rdVersion_reset⟩,
    State.reset_fifo_wf, State.reset_modeOk, State.reset_framesOk, State.reset_positionOk, Params.default_wf⟩

end Sys2Proof.Machine
end
